-- ==== Sys2Proof/Word.lean ====
section
/-! DEFINITION. The word types of TOPCALC (spec/00_scope.md R7, R10). -/

namespace Sys2Proof

/-- A 32-bit value: a command word, FREQ, SYSCLK, RESULT, the STATUS view, and a control register
zero-extended from CTRL_W bits (log 13). -/
abbrev Word := BitVec 32

/-- A 16-bit value: TOP_REG, DUTY_REG, TCNT and every imm16 operand (R7). -/
abbrev Half := BitVec 16

/-- One byte lane of the bus (R37). -/
abbrev Byte := BitVec 8

end Sys2Proof
end

