-- ==== Sys2Proof/Syntax.lean ====
section
/-! DEFINITION. The six commands of TOPCALC, the fields of a command word, and the names of the
host registers (spec/30_encoding.md R54 to R61, R68; spec/20_memory.md R34). -/

namespace Sys2Proof

/-- The closed enumeration of clock divisors, in the order of the MODE index (R60). -/
inductive PrescaleMode where
  | direct
  | freq8
  | freq64
  | freq256
  | freq1024
deriving DecidableEq, Repr

/-- One constructor per row of spec/opcode_table.json. The operand types are the operand forms of
R56, so every term is an instruction the encoding admits. -/
inductive Instr where
  /-- `CFG <mode>, <imm16>` (R75). -/
  | cfg (mode : PrescaleMode) (imm : Half)
  /-- `SETTOP <imm16>` (R78). -/
  | setTop (imm : Half)
  /-- `SETDUTY <imm16>` (R80). -/
  | setDuty (imm : Half)
  /-- `CALC <mode>` (R85). -/
  | calcTop (mode : PrescaleMode)
  /-- `DIV <mode>` (R71). -/
  | div (mode : PrescaleMode)
  /-- `ENC <mode>` (R73). -/
  | enc (mode : PrescaleMode)
deriving DecidableEq, Repr

/-- The four fields of a command word before any check (R55). -/
structure RawCommand where
  opc  : BitVec 8
  mode : BitVec 3
  rsv  : BitVec 5
  imm  : Half
deriving DecidableEq, Repr

/-- The three operand forms (R56). -/
inductive Form where
  | mi
  | i
  | m
deriving DecidableEq, Repr

/-- Why a command word is illegal, one name for each condition of R65. -/
inductive DecodeError where
  /-- (a) OPC is reserved (R62). -/
  | reservedOpcode
  /-- (b) RSV is not zero (R59). -/
  | rsvNotZero
  /-- (c) form I with MODE not zero. -/
  | modeNotZero
  /-- (d) form M with IMM16 not zero. -/
  | immNotZero
  /-- (e) form MI or M with MODE above 4 (R58). -/
  | modeOutOfRange
deriving DecidableEq, Repr

/-- What decoding a 32-bit word gives: a command, or ILLEGAL (R66). -/
inductive Decoded where
  | command (i : Instr)
  | illegal (why : DecodeError)
deriving DecidableEq, Repr

/-- What decoding a list of bytes gives: a command and the bytes after it, ILLEGAL, or fewer than
the four bytes every command has (R54). -/
inductive DecodedBytes where
  | command (i : Instr) (rest : List Byte)
  | illegal (why : DecodeError)
  | truncated
deriving DecidableEq, Repr

/-- The host-visible registers of the window (R20, R34). -/
inductive HostReg where
  | cmd
  | status
  | freq
  | sysclk
  | result
deriving DecidableEq, Repr

end Sys2Proof
end

