-- ==== Sys2Proof/Config.lean ====
section
/-! DEFINITION. The configuration parameters a model of TOPCALC takes as arguments
(spec/00_scope.md R8). They are plain data, carried beside the state (log 1), so a statement about
every state is a statement about every configuration. No parameter has a value the model relies
on. `Params.refAvrT1` is the spec's reference profile for test vectors, not normative (log 2). -/

namespace Sys2Proof

/-- Which of the two timer control registers. -/
inductive CtrlReg where
  | a
  | b
deriving DecidableEq, Repr

/-- A field piece `(reg, lsb, width, value)` (R8). -/
structure Piece where
  reg   : CtrlReg
  lsb   : Nat
  width : Nat
  value : Word
deriving DecidableEq, Repr

/-- Where the clock-select field sits: `CS_PIECE = (reg, lsb)` (R8). -/
structure CsPiece where
  reg : CtrlReg
  lsb : Nat
deriving DecidableEq, Repr

/-- The table CS_CODE, one code per mode: a lookup table, never a formula (R74). -/
structure CsCodes where
  direct   : Word
  freq8    : Word
  freq64   : Word
  freq256  : Word
  freq1024 : Word
deriving DecidableEq, Repr

/-- TIMER_INIT: what the four timer registers hold at reset (R8, R118). -/
structure TimerInit where
  ctrlA   : Word
  ctrlB   : Word
  topReg  : Half
  dutyReg : Half
deriving DecidableEq, Repr

/-- OVERSHOOT: what the counter does above TOP_REG (R8, R111). -/
inductive Overshoot where
  | countToMax
  | resetNow
deriving DecidableEq, Repr

/-- COINCIDE: the output when bottom and compare match coincide (R8, R113). -/
inductive Coincide where
  | setWins
  | clearWins
deriving DecidableEq, Repr

/-- TIMER_REG_ADDR: the chip addresses of the four timer registers (R8, R33). No rule reads them. -/
structure TimerRegAddr where
  ctrlA   : Nat
  ctrlB   : Nat
  topReg  : Nat
  dutyReg : Nat
deriving DecidableEq, Repr

/-- The parameters of R8. CS_CODE is a `CsCodes`. -/
structure Params where
  ctrlW        : Nat
  csW          : Nat
  csCodes      : CsCodes
  csPiece      : CsPiece
  wgmPieces    : List Piece
  comPiece     : Piece
  blockBase    : Nat
  timerInit    : TimerInit
  overshoot    : Overshoot
  coincide     : Coincide
  timerRegAddr : TimerRegAddr
deriving DecidableEq, Repr

/-- The reference profile REF-AVR-T1 of R8. PRESUMED: the spec marks it as general knowledge and not
normative (log 2). The block base 0 is a DESIGN CHOICE (log 3); the timer addresses are PRESUMED
(log 4). -/
def Params.refAvrT1 : Params where
  ctrlW := 8
  csW := 3
  csCodes := { direct := 0b001, freq8 := 0b010, freq64 := 0b011, freq256 := 0b100, freq1024 := 0b101 }
  csPiece := { reg := .b, lsb := 0 }
  wgmPieces :=
    [{ reg := .a, lsb := 0, width := 2, value := 0b10 },
     { reg := .b, lsb := 3, width := 2, value := 0b11 }]
  comPiece := { reg := .a, lsb := 6, width := 2, value := 0b11 }
  blockBase := 0
  timerInit := { ctrlA := 0, ctrlB := 0, topReg := 0, dutyReg := 0 }
  overshoot := .countToMax
  coincide := .setWins
  timerRegAddr := { ctrlA := 0x80, ctrlB := 0x81, topReg := 0x86, dutyReg := 0x88 }

end Sys2Proof
end

