-- ==== Sys2Proof/WellFormed.lean ====
section
/-! DEFINITION. Well-formed configurations (spec/00_scope.md R8, last column, and the paragraph after
the table) and legal command fields (spec/30_encoding.md R65). An `Instr` needs no check of its own:
its operand types are exactly what the encoding admits (R56, R60). -/

namespace Sys2Proof

/-- A piece lies inside its register, and its value fits its width (R8). -/
abbrev Piece.Fits (ctrlW : Nat) (q : Piece) : Prop :=
  q.lsb + q.width ≤ ctrlW ∧ q.value.toNat < 2 ^ q.width

/-- Two pieces share no bit of one register (R8). -/
abbrev Piece.Disjoint (q r : Piece) : Prop :=
  q.reg ≠ r.reg ∨ q.width = 0 ∨ r.width = 0 ∨ q.lsb + q.width ≤ r.lsb ∨ r.lsb + r.width ≤ q.lsb

/-- The five codes, in the order of the MODE index. -/
def CsCodes.list (c : CsCodes) : List Word := [c.direct, c.freq8, c.freq64, c.freq256, c.freq1024]

/-- Every code is below `2 ^ csW`. -/
abbrev CsCodes.Fit (c : CsCodes) (csW : Nat) : Prop :=
  c.direct.toNat < 2 ^ csW ∧ c.freq8.toNat < 2 ^ csW ∧ c.freq64.toNat < 2 ^ csW ∧
    c.freq256.toNat < 2 ^ csW ∧ c.freq1024.toNat < 2 ^ csW

/-- Every piece of the two registers as a place: WGM_PIECES, COM_PIECE and the clock-select field,
whose value depends on the mode and is left 0 here. -/
def Params.places (p : Params) : List Piece :=
  p.wgmPieces ++
    [p.comPiece, { reg := p.csPiece.reg, lsb := p.csPiece.lsb, width := p.csW, value := 0 }]

/-- Every constraint of R8 holds: the widths, CS_CODE total, in range and injective, each piece
inside its register with a value that fits, no two pieces overlapping, BLOCK_BASE aligned to 32
bytes, and the control registers' reset values inside CTRL_W bits. -/
abbrev Params.WellFormed (p : Params) : Prop :=
  (1 ≤ p.ctrlW ∧ p.ctrlW ≤ 32) ∧
  (1 ≤ p.csW ∧ p.csW ≤ p.ctrlW) ∧
  p.csCodes.Fit p.csW ∧
  p.csCodes.list.Nodup ∧
  (∀ q ∈ p.places, q.Fits p.ctrlW) ∧
  p.places.Pairwise Piece.Disjoint ∧
  p.blockBase % 32 = 0 ∧
  (p.timerInit.ctrlA.toNat < 2 ^ p.ctrlW ∧ p.timerInit.ctrlB.toNat < 2 ^ p.ctrlW)

/-- The form of an opcode; none for a reserved one (R61, R62). -/
def opcodeForm (opc : BitVec 8) : Option Form :=
  if opc = 0x01#8 then some .mi
  else if opc = 0x02#8 ∨ opc = 0x03#8 then some .i
  else if opc = 0x04#8 ∨ opc = 0x05#8 ∨ opc = 0x06#8 then some .m
  else none

/-- None of the conditions (a) to (e) of R65 holds. -/
abbrev RawCommand.Legal (r : RawCommand) : Prop :=
  opcodeForm r.opc ≠ none ∧
  r.rsv = 0 ∧
  (opcodeForm r.opc = some .i → r.mode = 0) ∧
  (opcodeForm r.opc = some .m → r.imm = 0) ∧
  (opcodeForm r.opc = some .mi ∨ opcodeForm r.opc = some .m → r.mode.toNat ≤ 4)

end Sys2Proof
end

