-- ==== Sys2Proof/Decode.lean ====
section
/-! DEFINITION. The decoder, total on every word and on every list of bytes, and the encoder
(spec/30_encoding.md R54 to R66, R70; byte lanes from spec/20_memory.md R37). -/

namespace Sys2Proof

/-- The MODE index of a PrescaleMode (R60). -/
def PrescaleMode.index : PrescaleMode → BitVec 3
  | .direct   => 0b000
  | .freq8    => 0b001
  | .freq64   => 0b010
  | .freq256  => 0b011
  | .freq1024 => 0b100

/-- The PrescaleMode a MODE index names; 5, 6 and 7 name none (R58, R60). -/
def modeOfIndex (m : BitVec 3) : Option PrescaleMode :=
  match m.toNat with
  | 0 => some .direct
  | 1 => some .freq8
  | 2 => some .freq64
  | 3 => some .freq256
  | 4 => some .freq1024
  | _ => none

/-- The fields OPC[31:24], MODE[23:21], RSV[20:16], IMM16[15:0] of a word (R55). -/
def rawOfWord (w : Word) : RawCommand where
  opc  := w.extractLsb' 24 8
  mode := w.extractLsb' 21 3
  rsv  := w.extractLsb' 16 5
  imm  := w.extractLsb' 0 16

/-- The word with given fields (R55). -/
def wordOfRaw (r : RawCommand) : Word := r.opc ++ r.mode ++ r.rsv ++ r.imm

/-- Reads the MODE operand, for forms MI and M (R58). -/
def takeMode (m : BitVec 3) (k : PrescaleMode → Decoded) : Decoded :=
  match modeOfIndex m with
  | some p => k p
  | none   => .illegal .modeOutOfRange

/-- Form I: MODE must be zero (R65 (c)). -/
def decodeFormI (r : RawCommand) (k : Half → Instr) : Decoded :=
  if r.mode ≠ 0 then .illegal .modeNotZero else .command (k r.imm)

/-- Form M: a mode, and IMM16 must be zero (R65 (d), (e)). -/
def decodeFormM (r : RawCommand) (k : PrescaleMode → Instr) : Decoded :=
  takeMode r.mode fun p => if r.imm ≠ 0 then .illegal .immNotZero else .command (k p)

/-- `decode` of R66 on the fields. -/
def decodeRaw (r : RawCommand) : Decoded :=
  if r.rsv ≠ 0 then .illegal .rsvNotZero
  else
    match r.opc.toNat with
    | 0x01 => takeMode r.mode fun p => .command (.cfg p r.imm)
    | 0x02 => decodeFormI r .setTop
    | 0x03 => decodeFormI r .setDuty
    | 0x04 => decodeFormM r .calcTop
    | 0x05 => decodeFormM r .div
    | 0x06 => decodeFormM r .enc
    | _    => .illegal .reservedOpcode

/-- Decoding a command word: total (R66). -/
def decode (w : Word) : Decoded := decodeRaw (rawOfWord w)

/-- The fields of an instruction's word (R55, R61); unused fields are zero (R56). -/
def rawOfInstr : Instr → RawCommand
  | .cfg m imm   => { opc := 0x01, mode := m.index, rsv := 0, imm := imm }
  | .setTop imm  => { opc := 0x02, mode := 0, rsv := 0, imm := imm }
  | .setDuty imm => { opc := 0x03, mode := 0, rsv := 0, imm := imm }
  | .calcTop m      => { opc := 0x04, mode := m.index, rsv := 0, imm := 0 }
  | .div m       => { opc := 0x05, mode := m.index, rsv := 0, imm := 0 }
  | .enc m       => { opc := 0x06, mode := m.index, rsv := 0, imm := 0 }

/-- Encoding, the inverse of `decode` (R66, R70). -/
def encode (i : Instr) : Word := wordOfRaw (rawOfInstr i)

/-- Byte lane `k` of a word carries bits `8k+7` down to `8k` (R37). -/
def laneOfWord (w : Word) (k : Nat) : Byte := w.extractLsb' (8 * k) 8

/-- The four lanes of a word, lane 0 first (R37). -/
def lanesOfWord (w : Word) : List Byte :=
  [laneOfWord w 0, laneOfWord w 1, laneOfWord w 2, laneOfWord w 3]

/-- The word that four lanes carry (R37). -/
def wordOfLanes (b0 b1 b2 b3 : Byte) : Word := b3 ++ b2 ++ b1 ++ b0

/-- Decoding a list of bytes, lane 0 first: total, and it takes exactly four bytes (R54). -/
def decodeBytes : List Byte → DecodedBytes
  | b0 :: b1 :: b2 :: b3 :: rest =>
    match decode (wordOfLanes b0 b1 b2 b3) with
    | .command i   => .command i rest
    | .illegal why => .illegal why
  | _ => .truncated

/-- The instruction the decoder reads from the table's numbering: bit 0 of `w` is the least
significant bit of the one 32-bit word, and bits at and above `nbits` are zero. No instruction is
longer than 32 bits (R54). -/
def decodeTableWord (nbits w : Nat) : Option Instr :=
  if nbits ≤ 32 then
    match decodeBytes (lanesOfWord (BitVec.ofNat 32 (w % 2 ^ nbits))) with
    | .command i _ => some i
    | .illegal _   => none
    | .truncated   => none
  else none

end Sys2Proof
end

