-- ==== Sys2Proof/Machine/State.lean ====
section
/-! DEFINITION. The state of TOPCALC (spec/10_state.md R15), what the environment may do to it
(spec/00_scope.md R13), the reasons a step may stop, and reset (spec/70_reset_and_hazards.md R116
to R118). -/

namespace Sys2Proof.Machine

/-- FCODE (R94). Codes 0x5 to 0xF are never produced, so the type has no name for them (log 14). -/
inductive FaultCode where
  | none
  | illegalCmd
  | reconfigure
  | notConfigured
  | busError
deriving DecidableEq, Repr

/-- The widths of a host read: 1, 2, 4 or 8 bytes (R35, log 12). -/
inductive BusSize where
  | byte
  | half
  | word
  | dword
deriving DecidableEq, Repr

/-- The data of a host write, which carries its width (R35, log 12). -/
inductive BusData where
  | byte (v : BitVec 8)
  | half (v : BitVec 16)
  | word (v : Word)
  | dword (v : BitVec 64)
deriving DecidableEq, Repr

/-- One event of the environment: a host access, a tick of the TIMER agent, or a reset
(R13, R116). -/
inductive Event where
  | read (size : BusSize) (addr : Nat)
  | write (addr : Nat) (data : BusData)
  | tick
  | reset
deriving DecidableEq, Repr

/-- What the bus answered to the last host access (log 10). -/
inductive BusReply where
  /-- No access since reset. -/
  | none
  /-- A write inside the window completed, with or without effect (R100). -/
  | written
  /-- A read inside the window returned this value (R38, R45). -/
  | data (v : Word)
  /-- The access lay outside the window and did not reach TOPCALC (R45). -/
  | notReached
deriving DecidableEq, Repr

/-- The reasons a step may stop with a fault: there are none. TOPCALC's faults enter the latch FAULT
and FCODE, which is a next state (R95, log 15). Nothing raises a constructor of this type. -/
inductive Fault
deriving DecidableEq, Repr

/-- The reasons a step is refused. -/
inductive Refusal where
  /-- Raised by an arm of `exec` whose instruction has no meaning yet. No arm is one. Safe. -/
  | notModelled (mnemonic : String)
  /-- Raised by `step` on a configuration that breaks a constraint of R8, which says a model must
  refuse it rather than run it. Safe. -/
  | illFormedConfiguration
deriving DecidableEq, Repr

/-- The state: R15's list, then the configuration (log 1) and the environment's side (log 7,
log 10). CMD and STATUS hold nothing of their own (R19, R21). -/
structure State where
  /-- FREQ (R16). -/
  freq       : Word
  /-- SYSCLK (R17). -/
  sysclk     : Word
  /-- RESULT (R18). -/
  result     : Word
  /-- CFG_DONE (R22). -/
  cfgDone    : Bool
  /-- PIN_DRIVEN (R23). -/
  pinDriven  : Bool
  /-- RANGE (R25). -/
  range      : Bool
  /-- FAULT (R26). -/
  fault      : Bool
  /-- FCODE (R26, R94). -/
  fcode      : FaultCode
  /-- ACTIVE_MODE (R24). -/
  activeMode : PrescaleMode
  /-- CTRL_A, CTRL_W bits, zero above them (R28, log 13). -/
  ctrlA      : Word
  /-- CTRL_B, CTRL_W bits, zero above them (R28, log 13). -/
  ctrlB      : Word
  /-- TOP_REG (R29). -/
  topReg     : Half
  /-- DUTY_REG (R30). -/
  dutyReg    : Half
  /-- TCNT (R111, R115). -/
  tcnt       : Half
  /-- OUT (R113, R115). -/
  out        : Bool
  /-- The configuration the machine is built with (R8); no step changes it. -/
  params     : Params
  /-- The events still to come, the next one first (log 7). -/
  pending    : List Event
  /-- What the bus answered to the last host access (log 10). -/
  busReply   : BusReply
deriving DecidableEq, Repr

/-- The machine right after reset under a configuration (R117, R118), with no event to come. -/
def State.resetWith (p : Params) : State where
  freq       := 0
  sysclk     := 0
  result     := 0
  cfgDone    := false
  pinDriven  := false
  range      := false
  fault      := false
  fcode      := .none
  activeMode := .direct
  ctrlA      := p.timerInit.ctrlA
  ctrlB      := p.timerInit.ctrlB
  topReg     := p.timerInit.topReg
  dutyReg    := p.timerInit.dutyReg
  tcnt       := 0
  out        := false
  params     := p
  pending    := []
  busReply   := .none

/-- The machine right after reset, under the spec's reference profile (log 2). Only the fields that
TIMER_INIT sets and `params` depend on the profile. -/
def State.reset : State := State.resetWith Params.refAvrT1

end Sys2Proof.Machine
end

