-- ==== Sys2Proof/Machine/Operands.lean ====
section
/-! DEFINITION. Operand values: the divisor and clock-select tables (spec/40_prescale.md R71, R74),
the derived masks and values of the control registers (spec/00_scope.md R9), the halved TOP
(R11, R75, R80), and the register window (spec/20_memory.md R34 to R36, R45). -/

namespace Sys2Proof.Machine

/-- The divisor table (R71). -/
def divisor : PrescaleMode → Nat
  | .direct   => 1
  | .freq8    => 8
  | .freq64   => 64
  | .freq256  => 256
  | .freq1024 => 1024

/-- The clock-select code table, a parameter (R74). -/
def csCode (p : Params) : PrescaleMode → Word
  | .direct   => p.csCodes.direct
  | .freq8    => p.csCodes.freq8
  | .freq64   => p.csCodes.freq64
  | .freq256  => p.csCodes.freq256
  | .freq1024 => p.csCodes.freq1024

/-- `piece_mask(lsb, width)` (R9). -/
def pieceMask (lsb width : Nat) : Word := ((1#32 <<< width) - 1#32) <<< lsb

/-- The mask `M_r`: every bit of register `r` that some piece covers (R9). -/
def fieldMask (p : Params) (r : CtrlReg) : Word :=
  (p.places.filter (·.reg = r)).foldr (fun q m => pieceMask q.lsb q.width ||| m) 0

/-- The pieces with the values CFG gives them under mode `m` (R9). -/
def piecesFor (p : Params) (m : PrescaleMode) : List Piece :=
  p.wgmPieces ++
    [p.comPiece, { reg := p.csPiece.reg, lsb := p.csPiece.lsb, width := p.csW, value := csCode p m }]

/-- The value `V_r(mode)` (R9). -/
def fieldValue (p : Params) (r : CtrlReg) (m : PrescaleMode) : Word :=
  ((piecesFor p m).filter (·.reg = r)).foldr (fun q v => (q.value <<< q.lsb) ||| v) 0

/-- The masked update of a control register (R41). -/
def maskedUpdate (old mask value : Word) : Word := (old &&& ~~~mask) ||| (value &&& mask)

/-- `imm >> 1`, the floor of a half (R11, R75, R80). -/
def halved (imm : Half) : Half := imm >>> 1

/-- The offset of a register in the window (R34). -/
def offsetOf : HostReg → Nat
  | .cmd    => 0x00
  | .status => 0x04
  | .freq   => 0x08
  | .sysclk => 0x0C
  | .result => 0x10

/-- The register at an offset; none at a misaligned or reserved one (R34, R36). -/
def regAt (off : Nat) : Option HostReg :=
  match off with
  | 0x00 => some .cmd
  | 0x04 => some .status
  | 0x08 => some .freq
  | 0x0C => some .sysclk
  | 0x10 => some .result
  | _    => none

/-- Writing STATUS or RESULT is a bus error (R34, R45). -/
def writable : HostReg → Bool
  | .cmd    => true
  | .status => false
  | .freq   => true
  | .sysclk => true
  | .result => false

/-- The offset of an address inside the 32-byte window, none outside it (R33, R45). Where an access
starts decides (log 11). -/
def offsetIn (p : Params) (addr : Nat) : Option Nat :=
  if p.blockBase ≤ addr ∧ addr < p.blockBase + 32 then some (addr - p.blockBase) else none

/-- The register a read reaches; none is a bus error: wrong width, misaligned, or reserved
(R35, R36, R45). -/
def readTarget (size : BusSize) (off : Nat) : Option HostReg :=
  match size with
  | .word  => if off % 4 = 0 then regAt off else none
  | .byte  => none
  | .half  => none
  | .dword => none

/-- The register and value of a write; none is a bus error: wrong width, misaligned, reserved, or a
read-only register (R35, R36, R45). -/
def writeTarget (off : Nat) (data : BusData) : Option (HostReg × Word) :=
  match data with
  | .word v  =>
    if off % 4 = 0 then
      match regAt off with
      | some r => if writable r then some (r, v) else none
      | none   => none
    else none
  | .byte _  => none
  | .half _  => none
  | .dword _ => none

end Sys2Proof.Machine
end

