-- ==== Sys2Proof/Machine/Flags.lean ====
section
/-! DEFINITION. The STATUS view of the flags (spec/10_state.md R21) and the codes of FCODE
(spec/60_exceptions.md R94). -/

namespace Sys2Proof.Machine

/-- The four bits of FCODE (R94). -/
def FaultCode.bits : FaultCode → BitVec 4
  | .none          => 0x0
  | .illegalCmd    => 0x1
  | .reconfigure   => 0x2
  | .notConfigured => 0x3
  | .busError      => 0x4

/-- STATUS: CFG_DONE in bit 0, PIN_DRIVEN in 1, RANGE in 2, FAULT in 3, FCODE in 7:4, ACTIVE_MODE in
10:8, zeros above (R21). -/
def statusWord (s : State) : Word :=
  0#21 ++ s.activeMode.index ++ s.fcode.bits ++ BitVec.ofBool s.fault ++ BitVec.ofBool s.range ++
    BitVec.ofBool s.pinDriven ++ BitVec.ofBool s.cfgDone

/-- What a read of a register returns (R34); CMD reads as zero (R19). -/
def readReg (s : State) : HostReg → Word
  | .cmd    => 0
  | .status => statusWord s
  | .freq   => s.freq
  | .sysclk => s.sysclk
  | .result => s.result

end Sys2Proof.Machine
end

