-- ==== Sys2Proof/Machine/Ops.lean ====
section
/-! DEFINITION. The named operations the meanings are built from: the single-register writes, taking
a fault (spec/60_exceptions.md R95), and the checks every command goes through (R101). There is no
return from a fault (R103): only reset clears the latch (spec/70_reset_and_hazards.md R116). -/

namespace Sys2Proof.Machine

/-- `RESULT <- v`. -/
def State.setResult (s : State) (v : Word) : State := { s with result := v }

/-- `RANGE <- b`. -/
def State.setRange (s : State) (b : Bool) : State := { s with range := b }

/-- `FREQ <- v` (R39). -/
def State.setFreq (s : State) (v : Word) : State := { s with freq := v }

/-- `SYSCLK <- v` (R39). -/
def State.setSysclk (s : State) (v : Word) : State := { s with sysclk := v }

/-- `TOP_REG <- v`, all 16 bits at once (R42). -/
def State.setTop (s : State) (v : Half) : State := { s with topReg := v }

/-- `DUTY_REG <- v`, all 16 bits at once (R42). -/
def State.setDuty (s : State) (v : Half) : State := { s with dutyReg := v }

/-- `FAULT <- 1`, `FCODE <- code`. -/
def State.setLatch (s : State) (code : FaultCode) : State := { s with fault := true, fcode := code }

/-- The event list moves on, and the bus answers. -/
def State.answered (s : State) (rest : List Event) (reply : BusReply) : State :=
  { s with pending := rest, busReply := reply }

/-- The event list moves on without a bus answer. -/
def State.advanced (s : State) (rest : List Event) : State := { s with pending := rest }

/-- `raise Fault(code)`: the first fault enters the latch, a later one changes nothing (R95). -/
def State.raise (s : State) (code : FaultCode) : State :=
  if s.fault then s else s.setLatch code

/-- A command while FAULT = 1 is discarded; otherwise it runs (R40, R96). -/
def runCommand (s : State) (body : State → State) : Host.Outcome State Fault Refusal :=
  if s.fault then .next s else .next (body s)

/-- NOT_CONFIGURED if CFG_DONE = 0 (R99). -/
def whenConfigured (s : State) (body : State → State) : State :=
  if s.cfgDone then body s else s.raise .notConfigured

/-- RECONFIGURE if CFG_DONE = 1 (R98). -/
def whenUnconfigured (s : State) (body : State → State) : State :=
  if s.cfgDone then s.raise .reconfigure else body s

end Sys2Proof.Machine
end

