-- ==== Sys2Proof/Machine/Configurator.lean ====
section
/-! DEFINITION. The timer configuration register mapper: CFG, SETTOP and SETDUTY
(spec/41_configurator.md). -/

namespace Sys2Proof.Machine

/-- The writes of an accepted CFG, all in one transition (R75, R77). -/
def State.configured (s : State) (mode : PrescaleMode) (imm : Half) : State :=
  { s with
    ctrlA      := maskedUpdate s.ctrlA (fieldMask s.params .a) (fieldValue s.params .a mode)
    ctrlB      := maskedUpdate s.ctrlB (fieldMask s.params .b) (fieldValue s.params .b mode)
    activeMode := mode
    topReg     := imm
    dutyReg    := halved imm
    pinDriven  := true
    cfgDone    := true }

/-- CFG (R75): a second one raises RECONFIGURE (R98). -/
def execCfg (mode : PrescaleMode) (imm : Half) (s : State) : Host.Outcome State Fault Refusal :=
  runCommand s fun s => whenUnconfigured s fun s => s.configured mode imm

/-- SETTOP (R78): any 16-bit value, no clamping. -/
def execSetTop (imm : Half) (s : State) : Host.Outcome State Fault Refusal :=
  runCommand s fun s => whenConfigured s fun s => s.setTop imm

/-- SETDUTY (R80): `DUTY_REG <- imm >> 1`. -/
def execSetDuty (imm : Half) (s : State) : Host.Outcome State Fault Refusal :=
  runCommand s fun s => whenConfigured s fun s => s.setDuty (halved imm)

end Sys2Proof.Machine
end

