-- ==== Sys2Proof/Machine/Prescale.lean ====
section
/-! DEFINITION. The prescale-mode encoder: DIV and ENC (spec/40_prescale.md). -/

namespace Sys2Proof.Machine

/-- DIV (R71): `RESULT <- zext_32(divisor(mode))`. -/
def execDiv (mode : PrescaleMode) (s : State) : Host.Outcome State Fault Refusal :=
  runCommand s fun s => s.setResult (BitVec.ofNat 32 (divisor mode))

/-- ENC (R73): `RESULT <- zext_32(CS_CODE(mode))`. -/
def execEnc (mode : PrescaleMode) (s : State) : Host.Outcome State Fault Refusal :=
  runCommand s fun s => s.setResult (csCode s.params mode)

end Sys2Proof.Machine
end

