-- ==== Sys2Proof/Machine/Translator.lean ====
section
/-! DEFINITION. The frequency translator: CALC (spec/42_translator.md). -/

namespace Sys2Proof.Machine

/-- The timer clock `tc = clk / divisor(mode)` (R85). -/
def timerClock (clk : Word) (mode : PrescaleMode) : Nat := clk.toNat / divisor mode

/-- The TOP value for a frequency, on naturals with floor division; none is a rejected input, in the
order of R85: `f = 0`, then `q = 0`, then `q - 1 > 0xFFFF`. -/
def topFor (f clk : Word) (mode : PrescaleMode) : Option Nat :=
  if f.toNat = 0 then none
  else
    let q := timerClock clk mode / f.toNat
    if q = 0 then none
    else if q - 1 > 0xFFFF then none
    else some (q - 1)

/-- The writes of CALC (R85): a rejected one sets RANGE and nothing else (R86). -/
def State.translated (s : State) (mode : PrescaleMode) : State :=
  match topFor s.freq s.sysclk mode with
  | some t => (s.setResult (BitVec.ofNat 32 t)).setRange false
  | none   => s.setRange true

/-- CALC (R85): the mode is the command's own, never ACTIVE_MODE. -/
def execCalc (mode : PrescaleMode) (s : State) : Host.Outcome State Fault Refusal :=
  runCommand s fun s => s.translated mode

end Sys2Proof.Machine
end

