-- ==== Sys2Proof/Machine/Dispatch.lean ====
section
/-! DEFINITION. One arm per constructor of Instr: the meaning of each command. -/

namespace Sys2Proof.Machine

/-- Runs one decoded command (R101, from the discard check on). -/
def exec (i : Instr) (s : State) : Host.Outcome State Fault Refusal :=
  match i with
  | .cfg mode imm => Sys2Proof.Machine.execCfg mode imm s
  | .setTop imm => Sys2Proof.Machine.execSetTop imm s
  | .setDuty imm => Sys2Proof.Machine.execSetDuty imm s
  | .calcTop mode => Sys2Proof.Machine.execCalc mode s
  | .div mode => Sys2Proof.Machine.execDiv mode s
  | .enc mode => Sys2Proof.Machine.execEnc mode s

end Sys2Proof.Machine
end

