-- ==== Sys2Proof/Machine/Timer.lean ====
section
/-! DEFINITION. The TIMER agent and the pin (spec/60_exceptions.md R110 to R115), and the timer
register space T (spec/20_memory.md R33). -/

namespace Sys2Proof.Machine

/-- `tick_count` (R111). -/
def nextCount (o : Overshoot) (tcnt top : Half) : Half :=
  if tcnt = top then 0
  else if o = .resetNow ∧ top.toNat < tcnt.toNat then 0
  else tcnt + 1

/-- The level when bottom and match coincide (R113). -/
def coincideLevel : Coincide → Bool
  | .setWins   => true
  | .clearWins => false

/-- The compare output from the new count: set on compare match, clear at bottom (R113). -/
def nextOut (c : Coincide) (tcnt' duty : Half) (out : Bool) : Bool :=
  if tcnt' = 0 then
    if tcnt' = duty then coincideLevel c else false
  else if tcnt' = duty then true
  else out

/-- `TCNT <- t`, `OUT <- o`. -/
def State.setCount (s : State) (t : Half) (o : Bool) : State := { s with tcnt := t, out := o }

/-- One tick: only while CFG_DONE = 1, else the counter is stopped (R110, log 9); FAULT does not stop
it (R96). -/
def State.ticked (s : State) : State :=
  if s.cfgDone then
    let t := nextCount s.params.overshoot s.tcnt s.topReg
    s.setCount t (nextOut s.params.coincide t s.dutyReg s.out)
  else s

/-- The output-enable of the designated pin equals PIN_DRIVEN (R23). -/
def pinOe (s : State) : Bool := s.pinDriven

/-- The level of the designated pin: OUT when driven, no value when not (R114). -/
def pinLevel (s : State) : Option Bool := if s.pinDriven then some s.out else none

/-- System clock cycles for one tick (R112). Timing only: no step reads it (log 18). -/
def clocksPerTick (s : State) : Nat := divisor s.activeMode

/-- The contents of space T by chip address, in the order CTRL_A, CTRL_B, TOP_REG, DUTY_REG (R33). -/
def timerSpace (s : State) : List (Nat × Word) :=
  [(s.params.timerRegAddr.ctrlA, s.ctrlA), (s.params.timerRegAddr.ctrlB, s.ctrlB),
   (s.params.timerRegAddr.topReg, s.topReg.setWidth 32),
   (s.params.timerRegAddr.dutyReg, s.dutyReg.setWidth 32)]

end Sys2Proof.Machine
end

