-- ==== Sys2Proof/Machine/Bus.lean ====
section
/-! DEFINITION. Host accesses, command delivery and the other events (spec/20_memory.md R38 to R40,
R45; spec/60_exceptions.md R97, R100, R101; spec/70_reset_and_hazards.md R116). -/

namespace Sys2Proof.Machine

/-- A host read. `rest` is the event list after it. A read changes nothing but the answer, save that a
bus error returns zero and enters the latch (R38, R45, R100). -/
def busRead (s : State) (size : BusSize) (addr : Nat) (rest : List Event) : State :=
  match offsetIn s.params addr with
  | none => s.answered rest .notReached
  | some off =>
    match readTarget size off with
    | none   => (s.answered rest (.data 0)).raise .busError
    | some r => s.answered rest (.data (readReg s r))

/-- A word written to CMD: discarded while FAULT = 1, ILLEGAL_CMD if it does not decode, else the
command runs (R40, R97, R101). -/
def deliver (s : State) (w : Word) : Host.Outcome State Fault Refusal :=
  if s.fault then .next s
  else
    match decode w with
    | .command i => exec i s
    | .illegal _ => .next (s.raise .illegalCmd)

/-- A write that reached a register (R34, R39, R40). STATUS and RESULT never come here from
`busWrite`; they are bus errors all the same (R45). -/
def writeReg (s : State) (r : HostReg) (v : Word) : Host.Outcome State Fault Refusal :=
  match r with
  | .cmd    => deliver s v
  | .freq   => .next (s.setFreq v)
  | .sysclk => .next (s.setSysclk v)
  | .status => .next (s.raise .busError)
  | .result => .next (s.raise .busError)

/-- A host write. A bus error writes no register and enters the latch (R45, R100). -/
def busWrite (s : State) (addr : Nat) (data : BusData) (rest : List Event) :
    Host.Outcome State Fault Refusal :=
  match offsetIn s.params addr with
  | none => .next (s.answered rest .notReached)
  | some off =>
    match writeTarget off data with
    | none        => .next ((s.answered rest .written).raise .busError)
    | some (r, v) => writeReg (s.answered rest .written) r v

/-- The reset transition: every piece of state takes its reset value, the configuration stays, and
the events still to come stay to come (R116, R117, log 7). -/
def resetNow (s : State) (rest : List Event) : State := (State.resetWith s.params).advanced rest

/-- Carries out one event, `rest` being the event list after it (R48, R116). -/
def carryOut (s : State) (e : Event) (rest : List Event) : Host.Outcome State Fault Refusal :=
  match e with
  | .read size addr  => .next (busRead s size addr rest)
  | .write addr data => busWrite s addr data rest
  | .tick            => .next (s.ticked.advanced rest)
  | .reset           => .next (resetNow s rest)

/-- The next event of the list, or nothing to do: TOPCALC waits for host accesses (R119, log 8). -/
def nextEvent (s : State) : Host.Outcome State Fault Refusal :=
  match s.pending with
  | []        => .next s
  | e :: rest => carryOut s e rest

/-- The host access that writes a word to CMD (R40). -/
def cmdWrite (p : Params) (w : Word) : Event := .write (p.blockBase + offsetOf .cmd) (.word w)

end Sys2Proof.Machine
end

