-- ==== Sys2Proof/Machine/Step.lean ====
section
/-! DEFINITION. One step of the machine, and how an instruction is placed where the next step takes
it. -/

namespace Sys2Proof.Machine

/-- One transition: the next event of the environment, carried out whole (R48). An ill-formed
configuration is refused rather than run (R8, log 16). -/
def step (s : State) : Host.Outcome State Fault Refusal :=
  if s.params.WellFormed then nextEvent s else .refused .illFormedConfiguration

/-- The instruction word as the next host access: a write to CMD, put before the events to come.
This is how a program comes to the block, which fetches nothing (R27, log 7). Bits at and above
`nbits` are zero. -/
def State.withFetchWord (s : State) (nbits w : Nat) : State :=
  { s with pending := cmdWrite s.params (BitVec.ofNat 32 (w % 2 ^ nbits)) :: s.pending }

end Sys2Proof.Machine
end

