-- ==== Sys2Proof/Machine/HostProgram.lean ====
section
/-! DEFINITION. Host accesses by register name and the pseudo-instructions, as the events they stand
for (spec/30_encoding.md R68, R69). Loops, variables and the test in TONE are the host's (log 21). -/

namespace Sys2Proof.Machine

/-- `WR <reg>, <imm32>` (R68). -/
def wr (p : Params) (r : HostReg) (v : Word) : Event := .write (p.blockBase + offsetOf r) (.word v)

/-- `RD <reg> -> <name>` (R68). -/
def rd (p : Params) (r : HostReg) : Event := .read .word (p.blockBase + offsetOf r)

/-- A command mnemonic alone is shorthand for a CMD write of its word (R68). -/
def issue (p : Params) (i : Instr) : Event := wr p .cmd (encode i)

/-- `TOPFOR <mode>, <f>, <clk> -> <t>` (R69). -/
def topforEvents (p : Params) (m : PrescaleMode) (f clk : Word) : List Event :=
  [wr p .freq f, wr p .sysclk clk, issue p (.calcTop m), rd p .status, rd p .result]

/-- What TONE issues after its TOPFOR, given the STATUS and RESULT the host read: a SETTOP if
STATUS[2] = 0 (R69). An accepted result fits 16 bits (R18). -/
def toneTail (p : Params) (status result : Word) : List Event :=
  if status.getLsbD 2 then [] else [issue p (.setTop (result.setWidth 16))]

/-- `STEP <imm16>` (R69). -/
def stepEvents (p : Params) (x : Half) : List Event := [issue p (.setTop x), issue p (.setDuty x)]

end Sys2Proof.Machine
end

