-- ==== Sys2Proof/Machine/Assembler.lean ====
section
/-! DEFINITION. The assembler syntax of commands and host accesses (spec/30_encoding.md R67, R68), on
lists of characters. -/

namespace Sys2Proof.Machine

/-- A piece of source text. -/
abbrev Text := List Char

/-- Why the assembler refuses a line (R67). -/
inductive AsmError where
  | mnemonic
  | operands
  | modeName
  | number
  | tooLarge
  | register
deriving DecidableEq, Repr

/-- What assembling gives. -/
inductive Assembled (α : Type) where
  | ok (v : α)
  | refused (why : AsmError)
deriving DecidableEq, Repr

/-- The member names of R60, in order. -/
def modeName : PrescaleMode → Text
  | .direct   => "Direct".toList
  | .freq8    => "Freq8".toList
  | .freq64   => "Freq64".toList
  | .freq256  => "Freq256".toList
  | .freq1024 => "Freq1024".toList

/-- The mode a name stands for; any other spelling is refused (R67). -/
def modeOfName (t : Text) : Option PrescaleMode :=
  [PrescaleMode.direct, .freq8, .freq64, .freq256, .freq1024].find? fun m => modeName m == t

/-- The value of a digit below a base; hexadecimal letters in either case (log 20). -/
def digitValue (base : Nat) (c : Char) : Option Nat :=
  let v :=
    if '0'.toNat ≤ c.toNat ∧ c.toNat ≤ '9'.toNat then c.toNat - '0'.toNat
    else if 'a'.toNat ≤ c.toNat ∧ c.toNat ≤ 'f'.toNat then c.toNat - 'a'.toNat + 10
    else if 'A'.toNat ≤ c.toNat ∧ c.toNat ≤ 'F'.toNat then c.toNat - 'A'.toNat + 10
    else base
  if v < base then some v else none

/-- Digits of a base after those read so far. -/
def readDigits (base : Nat) (acc : Nat) : Text → Option Nat
  | []      => some acc
  | c :: cs =>
    match digitValue base c with
    | some d => readDigits base (acc * base + d) cs
    | none   => none

/-- At least one digit. -/
def readNumber (base : Nat) : Text → Option Nat
  | [] => none
  | cs => readDigits base 0 cs

/-- An immediate: decimal, or hexadecimal after `0x` (R67). -/
def numberOfText : Text → Option Nat
  | '0' :: 'x' :: cs => readNumber 16 cs
  | cs               => readNumber 10 cs

/-- An immediate below `2 ^ bits`, else a refusal (R67). -/
def immOfText (bits : Nat) (t : Text) : Assembled Nat :=
  match numberOfText t with
  | none   => .refused .number
  | some n => if n < 2 ^ bits then .ok n else .refused .tooLarge

/-- Form M: one mode name. -/
def assembleM (k : PrescaleMode → Instr) (ops : List Text) : Assembled Instr :=
  match ops with
  | [m] =>
    match modeOfName m with
    | some m => .ok (k m)
    | none   => .refused .modeName
  | _ => .refused .operands

/-- Form I: one 16-bit immediate. -/
def assembleI (k : Half → Instr) (ops : List Text) : Assembled Instr :=
  match ops with
  | [t] =>
    match immOfText 16 t with
    | .ok n        => .ok (k (BitVec.ofNat 16 n))
    | .refused why => .refused why
  | _ => .refused .operands

/-- Form MI: a mode name and a 16-bit immediate. -/
def assembleMI (k : PrescaleMode → Half → Instr) (ops : List Text) : Assembled Instr :=
  match ops with
  | [m, t] =>
    match modeOfName m with
    | some m => assembleI (k m) [t]
    | none   => .refused .modeName
  | _ => .refused .operands

/-- A command from its mnemonic, upper case, and its operands (R67). -/
def assembleCommand (mn : Text) (ops : List Text) : Assembled Instr :=
  if mn = "CFG".toList then assembleMI .cfg ops
  else if mn = "SETTOP".toList then assembleI .setTop ops
  else if mn = "SETDUTY".toList then assembleI .setDuty ops
  else if mn = "CALC".toList then assembleM .calcTop ops
  else if mn = "DIV".toList then assembleM .div ops
  else if mn = "ENC".toList then assembleM .enc ops
  else .refused .mnemonic

/-- The register names of R68. -/
def regName : HostReg → Text
  | .cmd    => "CMD".toList
  | .status => "STATUS".toList
  | .freq   => "FREQ".toList
  | .sysclk => "SYSCLK".toList
  | .result => "RESULT".toList

/-- The register a name stands for. -/
def regOfName (t : Text) : Option HostReg :=
  [HostReg.cmd, .status, .freq, .sysclk, .result].find? fun r => regName r == t

/-- `WR <reg>, <imm32>` (R68). -/
def assembleWr (p : Params) (ops : List Text) : Assembled Event :=
  match ops with
  | [r, t] =>
    match regOfName r with
    | none   => .refused .register
    | some r =>
      match immOfText 32 t with
      | .ok n        => .ok (wr p r (BitVec.ofNat 32 n))
      | .refused why => .refused why
  | _ => .refused .operands

/-- `RD <reg> -> <name>`: the text before the arrow names the register. The variable is the host's
(R68, log 21). -/
def assembleRd (p : Params) (reg : Text) : Assembled Event :=
  match regOfName reg with
  | some r => .ok (rd p r)
  | none   => .refused .register

/-- Splits at every occurrence of a character; always at least one piece. -/
def splitAt (sep : Char) : Text → List Text
  | []      => [[]]
  | c :: cs =>
    if c = sep then [] :: splitAt sep cs
    else
      match splitAt sep cs with
      | t :: ts => (c :: t) :: ts
      | []      => [[c]]

/-- Drops the blanks around a piece (log 20). -/
def trim (t : Text) : Text := ((t.dropWhile (· = ' ')).reverse.dropWhile (· = ' ')).reverse

/-- The first blank-delimited word of a line, and the rest of it. -/
def firstWord (t : Text) : Text × Text :=
  ((trim t).takeWhile (· ≠ ' '), (trim t).dropWhile (· ≠ ' '))

/-- The operands of a line, separated by commas; a line with nothing after its first word has none. -/
def operandsOf (t : Text) : List Text := if trim t = [] then [] else (splitAt ',' t).map trim

/-- One line of host source: WR, RD or a command mnemonic, as the access it stands for
(R67, R68). -/
def assembleLine (p : Params) (line : Text) : Assembled Event :=
  let (mn, rest) := firstWord line
  if mn = "WR".toList then assembleWr p (operandsOf rest)
  else if mn = "RD".toList then
    match (splitAt ' ' (trim rest)).filter (· ≠ []) with
    | [reg, arrow, _] => if arrow = "->".toList then assembleRd p reg else .refused .operands
    | _               => .refused .operands
  else
    match assembleCommand mn (operandsOf rest) with
    | .ok i        => .ok (issue p i)
    | .refused why => .refused why

/-- The mnemonic of an instruction (R61). -/
def mnemonicText : Instr → Text
  | .cfg _ _   => "CFG".toList
  | .setTop _  => "SETTOP".toList
  | .setDuty _ => "SETDUTY".toList
  | .calcTop _    => "CALC".toList
  | .div _     => "DIV".toList
  | .enc _     => "ENC".toList

/-- A hexadecimal digit. -/
def hexDigit (d : BitVec 4) : Char :=
  if d.toNat < 10 then Char.ofNat ('0'.toNat + d.toNat) else Char.ofNat ('A'.toNat + (d.toNat - 10))

/-- A 16-bit immediate as `0x` and four digits. -/
def immText (v : Half) : Text :=
  ['0', 'x', hexDigit (v.extractLsb' 12 4), hexDigit (v.extractLsb' 8 4),
    hexDigit (v.extractLsb' 4 4), hexDigit (v.extractLsb' 0 4)]

/-- The operands of an instruction as text (R67). -/
def operandText : Instr → List Text
  | .cfg m imm   => [modeName m, immText imm]
  | .setTop imm  => [immText imm]
  | .setDuty imm => [immText imm]
  | .calcTop m      => [modeName m]
  | .div m       => [modeName m]
  | .enc m       => [modeName m]

end Sys2Proof.Machine
end

