-- ==== Sys2Proof/Safety.lean ====
section
/-! DEFINITION. The terms in which claims about runs are stated: good states, the invariant every
step keeps, what the host can see, and runs of the machine. -/

namespace Sys2Proof.Machine

/-- A faulted state is never a good final state (spec/60_exceptions.md, introduction). -/
abbrev State.Good (s : State) : Prop := s.fault = false

/-- A control register of the timer image. -/
def State.ctrl (s : State) : CtrlReg → Word
  | .a => s.ctrlA
  | .b => s.ctrlB

/-- What TIMER_INIT gives a control register. -/
def initCtrl (p : Params) : CtrlReg → Word
  | .a => p.timerInit.ctrlA
  | .b => p.timerInit.ctrlB

/-- The clock-select field of the timer register image: CS_W bits at CS_PIECE (R28, R73). -/
def State.csField (s : State) : Word :=
  (s.ctrl s.params.csPiece.reg >>> s.params.csPiece.lsb) &&& pieceMask 0 s.params.csW

/-- The invariant of every run: what the rules say of the state at every moment since reset. -/
structure State.Inv (s : State) : Prop where
  /-- The configuration is well-formed (R8). -/
  wellFormed : s.params.WellFormed
  /-- CTRL_A and CTRL_B are CTRL_W bits wide (R28). -/
  width : ∀ r, (s.ctrl r).toNat < 2 ^ s.params.ctrlW
  /-- FCODE is 0 exactly while FAULT = 0 (R21, R26). -/
  latch : s.fcode = .none ↔ s.fault = false
  /-- The pin is driven exactly once CFG is accepted (R22, R23, R82). -/
  pin : s.pinDriven = s.cfgDone
  /-- Before CFG the timer stands at its reset values (R24, R110, R118). -/
  unconfigured : s.cfgDone = false →
    s.activeMode = .direct ∧ (∀ r, s.ctrl r = initCtrl s.params r) ∧
    s.topReg = s.params.timerInit.topReg ∧ s.dutyReg = s.params.timerInit.dutyReg ∧
    s.tcnt = 0 ∧ s.out = false
  /-- After CFG the pieces hold their legal values for ACTIVE_MODE, and every other bit what
  TIMER_INIT gave it (R28, R76, R84). -/
  configured : s.cfgDone = true → ∀ r i, i < 32 →
    (s.ctrl r).getLsbD i =
      if (fieldMask s.params r).getLsbD i then (fieldValue s.params r s.activeMode).getLsbD i
      else (initCtrl s.params r).getLsbD i
  /-- After CFG the duty register holds half of a 16-bit value (R75, R80). -/
  duty : s.cfgDone = true → s.dutyReg.toNat < 2 ^ 15
  /-- RESULT holds a TOP value, a divisor or a clock-select code (R18). -/
  result : s.result.toNat < 2 ^ 16 ∨ s.result.toNat < 2 ^ s.params.csW

/-- Everything the host can learn of the block: the registers of the window and the last answer.
The timer image, TCNT and OUT are not in it (R32, R115). -/
structure HostView where
  freq     : Word
  sysclk   : Word
  result   : Word
  status   : Word
  busReply : BusReply
deriving DecidableEq, Repr

/-- The host's view of a state. -/
def State.hostView (s : State) : HostView where
  freq     := s.freq
  sysclk   := s.sysclk
  result   := s.result
  status   := statusWord s
  busReply := s.busReply

/-- An access that reaches the window and is a bus error (R45): a wrong width, a misaligned address, a
reserved offset, or a write of STATUS or RESULT. Where it starts decides that it reaches the window
(log 11). -/
def Event.IsBusError (p : Params) : Event → Prop
  | .read size addr =>
    p.blockBase ≤ addr ∧ addr < p.blockBase + 32 ∧
      (size ≠ .word ∨ (addr - p.blockBase) % 4 ≠ 0 ∨ 0x14 ≤ addr - p.blockBase)
  | .write addr data =>
    p.blockBase ≤ addr ∧ addr < p.blockBase + 32 ∧
      ((∀ v, data ≠ .word v) ∨ (addr - p.blockBase) % 4 ≠ 0 ∨ addr - p.blockBase = 0x04 ∨
        addr - p.blockBase = 0x10 ∨ 0x14 ≤ addr - p.blockBase)
  | .tick  => False
  | .reset => False

/-- Writing a word to CMD, while no fault is latched, raises ILLEGAL_CMD and changes nothing else
(R65, R97). -/
def RaisesIllegalCmd (w : Word) : Prop :=
  ∀ (s : State) (rest : List Event), s.params.WellFormed → s.fault = false →
    s.pending = .write s.params.blockBase (.word w) :: rest →
    step s = .next { s with
      pending := rest, busReply := .written, fault := true, fcode := .illegalCmd }

/-- `n` steps of the machine, stopping at the first fault or refusal. -/
def runSteps : Nat → State → Host.Outcome State Fault Refusal
  | 0,     s => .next s
  | n + 1, s =>
    match step s with
    | .next t    => runSteps n t
    | .fault r   => .fault r
    | .refused r => .refused r

/-- The level of OUT after `n` steps; a run that stops has none, and reads low. -/
def outAfter (n : Nat) (s : State) : Bool :=
  match runSteps n s with
  | .next t    => t.out
  | .fault _   => false
  | .refused _ => false

/-- An event that is no tick. -/
def Event.isNotTick : Event → Bool
  | .read _ _  => true
  | .write _ _ => true
  | .tick      => false
  | .reset     => true

/-- An event that is no reset. -/
def Event.isNotReset : Event → Bool
  | .read _ _  => true
  | .write _ _ => true
  | .tick      => true
  | .reset     => false

end Sys2Proof.Machine
end

