-- ==== Sys2Proof/Certificates/Slice0/Obligations.lean ====
section
/-! DEFINITION. The statements for the provers, from the spec's numbered rules. In each statement
about a step the model's own fields `pending` and `busReply` move as the events say (log 7, log 10);
what the statement says of the other fields is the spec's. -/

open Sys2Proof Sys2Proof.Machine

/-! ### Encoding and decoding -/

/-- R70, first sentence and its six examples. -/
def Obligations.EncodingClosedForm : Prop :=
  (∀ (m : PrescaleMode) (v : Half), encode (.cfg m v) =
      (0x01#32 <<< 24) ||| (m.index.setWidth 32 <<< 21) ||| v.setWidth 32) ∧
  (∀ v : Half, encode (.setTop v) = (0x02#32 <<< 24) ||| v.setWidth 32) ∧
  (∀ v : Half, encode (.setDuty v) = (0x03#32 <<< 24) ||| v.setWidth 32) ∧
  (∀ m : PrescaleMode, encode (.calcTop m) = (0x04#32 <<< 24) ||| (m.index.setWidth 32 <<< 21)) ∧
  (∀ m : PrescaleMode, encode (.div m) = (0x05#32 <<< 24) ||| (m.index.setWidth 32 <<< 21)) ∧
  (∀ m : PrescaleMode, encode (.enc m) = (0x06#32 <<< 24) ||| (m.index.setWidth 32 <<< 21)) ∧
  encode (.cfg .freq1024 34) = 0x01800022#32 ∧
  encode (.setTop 34) = 0x02000022#32 ∧
  encode (.setDuty 125) = 0x0300007D#32 ∧
  encode (.calcTop .freq1024) = 0x04800000#32 ∧
  encode (.div .freq64) = 0x05400000#32 ∧
  encode (.enc .freq256) = 0x06600000#32

/-- Words of section 2.1 of 95_test_vectors.md, one per command and one per condition of R65. -/
def Obligations.WordsOfTheSpecDecode : Prop :=
  decode 0x01800022#32 = .command (.cfg .freq1024 34) ∧
  decode 0x0200FFFF#32 = .command (.setTop 65535) ∧
  decode 0x03000001#32 = .command (.setDuty 1) ∧
  decode 0x04800000#32 = .command (.calcTop .freq1024) ∧
  decode 0x05000000#32 = .command (.div .direct) ∧
  decode 0x06800000#32 = .command (.enc .freq1024) ∧
  decode 0x00000000#32 = .illegal .reservedOpcode ∧
  decode 0x01010000#32 = .illegal .rsvNotZero ∧
  decode 0x02200005#32 = .illegal .modeNotZero ∧
  decode 0x04800001#32 = .illegal .immNotZero ∧
  decode 0x01A00000#32 = .illegal .modeOutOfRange

/-- R61: a word selects a row exactly by the row's mask and match and, for forms MI and M, by
`w[23:21] ≤ 4`; the operands are the fields of R57 and R58. -/
def Obligations.TableRowsSelectCommands : Prop :=
  ∀ w : Word,
    ((∃ m v, decode w = .command (.cfg m v)) ↔
      w &&& 0xFF1F0000#32 = 0x01000000#32 ∧ (w.extractLsb' 21 3).toNat ≤ 4) ∧
    ((∃ v, decode w = .command (.setTop v)) ↔ w &&& 0xFFFF0000#32 = 0x02000000#32) ∧
    ((∃ v, decode w = .command (.setDuty v)) ↔ w &&& 0xFFFF0000#32 = 0x03000000#32) ∧
    ((∃ m, decode w = .command (.calcTop m)) ↔
      w &&& 0xFF1FFFFF#32 = 0x04000000#32 ∧ (w.extractLsb' 21 3).toNat ≤ 4) ∧
    ((∃ m, decode w = .command (.div m)) ↔
      w &&& 0xFF1FFFFF#32 = 0x05000000#32 ∧ (w.extractLsb' 21 3).toNat ≤ 4) ∧
    ((∃ m, decode w = .command (.enc m)) ↔
      w &&& 0xFF1FFFFF#32 = 0x06000000#32 ∧ (w.extractLsb' 21 3).toNat ≤ 4) ∧
    (∀ m v, decode w = .command (.cfg m v) →
      m.index = w.extractLsb' 21 3 ∧ v = w.extractLsb' 0 16) ∧
    (∀ v, decode w = .command (.setTop v) ∨ decode w = .command (.setDuty v) →
      v = w.extractLsb' 0 16) ∧
    (∀ m, decode w = .command (.calcTop m) ∨ decode w = .command (.div m) ∨
        decode w = .command (.enc m) →
      m.index = w.extractLsb' 21 3)

/-- R65 with R97: a word is illegal exactly under (a) to (e), and writing it to CMD, while no fault is
latched, raises ILLEGAL_CMD and changes nothing else. -/
def Obligations.IllegalWordsRaiseIllegalCmd : Prop :=
  ∀ w : Word,
    ((∃ why, decode w = .illegal why) ↔
      ((w.extractLsb' 24 8).toNat = 0 ∨ 7 ≤ (w.extractLsb' 24 8).toNat) ∨
      w.extractLsb' 16 5 ≠ 0 ∨
      (((w.extractLsb' 24 8).toNat = 2 ∨ (w.extractLsb' 24 8).toNat = 3) ∧
        w.extractLsb' 21 3 ≠ 0) ∨
      (((w.extractLsb' 24 8).toNat = 4 ∨ (w.extractLsb' 24 8).toNat = 5 ∨
          (w.extractLsb' 24 8).toNat = 6) ∧ w.extractLsb' 0 16 ≠ 0) ∨
      (((w.extractLsb' 24 8).toNat = 1 ∨ (w.extractLsb' 24 8).toNat = 4 ∨
          (w.extractLsb' 24 8).toNat = 5 ∨ (w.extractLsb' 24 8).toNat = 6) ∧
        4 < (w.extractLsb' 21 3).toNat)) ∧
    ((∃ why, decode w = .illegal why) → RaisesIllegalCmd w)

/-- Decode and encode agree on every instruction with every operand: on the word, on the four byte
lanes (R37) followed by any bytes, and on the table's numbering. -/
def Obligations.DecodeOfEncodeIsTheInstruction : Prop :=
  ∀ (i : Instr) (rest : List Byte),
    decode (encode i) = .command i ∧
    decodeBytes (lanesOfWord (encode i) ++ rest) = .command i rest ∧
    decodeTableWord 32 (encode i).toNat = some i

/-- R66, last sentence: encoding a decoded word gives the word back, so no two words decode to one
command. -/
def Obligations.EncodeOfDecodeIsTheWord : Prop :=
  ∀ (w : Word) (i : Instr), decode w = .command i → encode i = w

/-- R37: byte lane k carries bits 8k+7 to 8k, and the four lanes carry the whole word. -/
def Obligations.ByteLanesAreLittleEndian : Prop :=
  ∀ w : Word,
    (∀ k j, k < 4 → j < 8 → (laneOfWord w k).getLsbD j = w.getLsbD (8 * k + j)) ∧
    wordOfLanes (laneOfWord w 0) (laneOfWord w 1) (laneOfWord w 2) (laneOfWord w 3) = w

/-- R67: an instruction's own text assembles to it; a text is a mode exactly when it is one of the five
member names, written out here, and every other text in a mode's place is refused; immediates below
65536 are taken and those of 65536 or more refused. That the printed immediate is hexadecimal is the
model's choice (log 20). -/
def Obligations.AssemblerReadsItsOwnText : Prop :=
  (∀ i : Instr, assembleCommand (mnemonicText i) (operandText i) = .ok i) ∧
  modeName .direct = "Direct".toList ∧ modeName .freq8 = "Freq8".toList ∧
  modeName .freq64 = "Freq64".toList ∧ modeName .freq256 = "Freq256".toList ∧
  modeName .freq1024 = "Freq1024".toList ∧
  (∀ (t : Text) (m : PrescaleMode), modeOfName t = some m ↔ t = modeName m) ∧
  (∀ m : PrescaleMode,
    assembleCommand "CALC".toList [modeName m] = .ok (.calcTop m) ∧
    assembleCommand "DIV".toList [modeName m] = .ok (.div m) ∧
    assembleCommand "ENC".toList [modeName m] = .ok (.enc m)) ∧
  (∀ t : Text, t ≠ "Direct".toList → t ≠ "Freq8".toList → t ≠ "Freq64".toList →
    t ≠ "Freq256".toList → t ≠ "Freq1024".toList →
    assembleCommand "CALC".toList [t] = .refused .modeName ∧
    assembleCommand "DIV".toList [t] = .refused .modeName ∧
    assembleCommand "ENC".toList [t] = .refused .modeName ∧
    ∀ x, assembleCommand "CFG".toList [t, x] = .refused .modeName) ∧
  (∀ (t : Text) (n : Nat), numberOfText t = some n → n < 65536 →
    assembleCommand "SETTOP".toList [t] = .ok (.setTop (BitVec.ofNat 16 n)) ∧
    assembleCommand "SETDUTY".toList [t] = .ok (.setDuty (BitVec.ofNat 16 n)) ∧
    ∀ m, assembleCommand "CFG".toList [modeName m, t] = .ok (.cfg m (BitVec.ofNat 16 n))) ∧
  (∀ (t : Text) (n : Nat), numberOfText t = some n → 65536 ≤ n →
    assembleCommand "SETTOP".toList [t] = .refused .tooLarge ∧
    assembleCommand "SETDUTY".toList [t] = .refused .tooLarge ∧
    ∀ m, assembleCommand "CFG".toList [modeName m, t] = .refused .tooLarge)

/-! ### The step, the bus and the window -/

/-- A configuration is refused exactly when it breaks a constraint of R8; under any other, every step
goes on, whatever the state holds. -/
def Obligations.StepGoesOnExactlyWhenWellFormed : Prop :=
  ∀ s : State,
    (s.params.WellFormed → ∃ t, step s = .next t) ∧
    (¬ s.params.WellFormed → step s = .refused .illFormedConfiguration)

/-- R40: a CMD write is discarded while FAULT = 1, and otherwise runs the decoded command's rule or
raises ILLEGAL_CMD. The middle clause holds for every latch: `exec` discards by itself. -/
def Obligations.CmdWriteRunsTheDecodedCommand : Prop :=
  ∀ (s : State) (w : Word) (rest : List Event), s.params.WellFormed →
    s.pending = .write s.params.blockBase (.word w) :: rest →
    (s.fault = true → step s = .next { s with pending := rest, busReply := .written }) ∧
    (∀ i, decode w = .command i →
      step s = exec i { s with pending := rest, busReply := .written }) ∧
    (s.fault = false → ∀ why, decode w = .illegal why →
      step s = .next { s with
        pending := rest, busReply := .written, fault := true, fcode := .illegalCmd })

/-- An instruction placed by `withFetchWord` is what the next step runs (log 7). -/
def Obligations.PlacedWordIsRunNext : Prop :=
  ∀ (s : State) (i : Instr), s.params.WellFormed →
    step (s.withFetchWord 32 (encode i).toNat) = exec i { s with busReply := .written }

/-- R38 with the read column of R34: each readable register's value is returned and nothing else
changes; the only other thing a read can do is enter the latch by a bus error, returning zero. -/
def Obligations.ReadsReturnRegistersAndChangeNothing : Prop :=
  ∀ (s : State) (rest : List Event), s.params.WellFormed →
    (∀ off v,
      (off = 0x00 ∧ v = 0#32) ∨ (off = 0x04 ∧ v = statusWord s) ∨ (off = 0x08 ∧ v = s.freq) ∨
        (off = 0x0C ∧ v = s.sysclk) ∨ (off = 0x10 ∧ v = s.result) →
      s.pending = .read .word (s.params.blockBase + off) :: rest →
      step s = .next { s with pending := rest, busReply := .data v }) ∧
    (∀ size addr, s.pending = .read size addr :: rest →
      ∃ t, step s = .next t ∧
        (t = { s with pending := rest, busReply := t.busReply } ∨
          s.fault = false ∧
          t = { s with
            pending := rest, busReply := .data 0, fault := true, fcode := .busError }))

/-- R39: a write of FREQ or SYSCLK replaces the register and has no other effect, with or without a
latched fault. -/
def Obligations.OperandWritesReplaceTheRegister : Prop :=
  ∀ (s : State) (v : Word) (rest : List Event), s.params.WellFormed →
    (s.pending = .write (s.params.blockBase + 0x08) (.word v) :: rest →
      step s = .next { s with pending := rest, busReply := .written, freq := v }) ∧
    (s.pending = .write (s.params.blockBase + 0x0C) (.word v) :: rest →
      step s = .next { s with pending := rest, busReply := .written, sysclk := v })

/-- From R45 and R100: which accesses are bus errors, what they return and latch, and that an access
outside the window changes no register. Two things in it are the model's choice: that the address an
access starts at decides whether it is inside the window (log 11), and that the host is answered
`notReached` outside it (log 10). -/
def Obligations.BusErrorsLatchAndDoNothingElse : Prop :=
  ∀ (s : State) (addr : Nat) (rest : List Event), s.params.WellFormed →
    (∀ size, s.pending = .read size addr :: rest →
      s.params.blockBase ≤ addr → addr < s.params.blockBase + 32 →
      (size ≠ .word ∨ (addr - s.params.blockBase) % 4 ≠ 0 ∨ 0x14 ≤ addr - s.params.blockBase) →
      (s.fault = true → step s = .next { s with pending := rest, busReply := .data 0 }) ∧
      (s.fault = false → step s = .next { s with
        pending := rest, busReply := .data 0, fault := true, fcode := .busError })) ∧
    (∀ data, s.pending = .write addr data :: rest →
      s.params.blockBase ≤ addr → addr < s.params.blockBase + 32 →
      ((∀ v, data ≠ .word v) ∨ (addr - s.params.blockBase) % 4 ≠ 0 ∨
        addr - s.params.blockBase = 0x04 ∨ addr - s.params.blockBase = 0x10 ∨
        0x14 ≤ addr - s.params.blockBase) →
      (s.fault = true → step s = .next { s with pending := rest, busReply := .written }) ∧
      (s.fault = false → step s = .next { s with
        pending := rest, busReply := .written, fault := true, fcode := .busError })) ∧
    ((addr < s.params.blockBase ∨ s.params.blockBase + 32 ≤ addr) →
      (∀ size, s.pending = .read size addr :: rest →
        step s = .next { s with pending := rest, busReply := .notReached }) ∧
      (∀ data, s.pending = .write addr data :: rest →
        step s = .next { s with pending := rest, busReply := .notReached }))

/-- R21: the layout of STATUS bit by bit, what a read of it returns, that a write of it is a bus
error, and that FCODE reads 0 while FAULT = 0 and ACTIVE_MODE reads 0 while CFG_DONE = 0 in every
state of a run (the invariant). -/
def Obligations.StatusLayout : Prop :=
  ∀ s : State,
    (statusWord s).getLsbD 0 = s.cfgDone ∧
    (statusWord s).getLsbD 1 = s.pinDriven ∧
    (statusWord s).getLsbD 2 = s.range ∧
    (statusWord s).getLsbD 3 = s.fault ∧
    (statusWord s).extractLsb' 4 4 =
      (match s.fcode with
        | .none => 0 | .illegalCmd => 1 | .reconfigure => 2 | .notConfigured => 3
        | .busError => 4) ∧
    (statusWord s).extractLsb' 8 3 =
      (match s.activeMode with
        | .direct => 0 | .freq8 => 1 | .freq64 => 2 | .freq256 => 3 | .freq1024 => 4) ∧
    (statusWord s).extractLsb' 11 21 = 0 ∧
    (s.Inv → s.fault = false → (statusWord s).extractLsb' 4 4 = 0) ∧
    (s.Inv → s.cfgDone = false → (statusWord s).extractLsb' 8 3 = 0) ∧
    (∀ p, statusWord (State.resetWith p) = 0) ∧
    (∀ rest, s.params.WellFormed →
      s.pending = .read .word (s.params.blockBase + 0x04) :: rest →
      step s = .next { s with pending := rest, busReply := .data (statusWord s) }) ∧
    (∀ rest v, s.params.WellFormed → s.fault = false →
      s.pending = .write (s.params.blockBase + 0x04) (.word v) :: rest →
      step s = .next { s with
        pending := rest, busReply := .written, fault := true, fcode := .busError })

/-- R101: the order of checks, with R98 and R99. A bus error comes before anything else, whatever the
word and the latch; then the discard; then decoding, whatever CFG_DONE is; then the sequencing of CFG,
SETTOP and SETDUTY; otherwise the command executes, which latches no fault. -/
def Obligations.ChecksAreMadeInOrder : Prop :=
  ∀ (s : State) (rest : List Event), s.params.WellFormed →
    (∀ size addr, s.pending = .read size addr :: rest → s.fault = false →
      s.params.blockBase ≤ addr → addr < s.params.blockBase + 32 →
      (size ≠ .word ∨ (addr - s.params.blockBase) % 4 ≠ 0 ∨ 0x14 ≤ addr - s.params.blockBase) →
      ∃ t, step s = .next t ∧ t.fault = true ∧ t.fcode = .busError) ∧
    (∀ addr data, s.pending = .write addr data :: rest → s.fault = false →
      s.params.blockBase ≤ addr → addr < s.params.blockBase + 32 →
      ((∀ v, data ≠ .word v) ∨ (addr - s.params.blockBase) % 4 ≠ 0 ∨
        addr - s.params.blockBase = 0x04 ∨ addr - s.params.blockBase = 0x10 ∨
        0x14 ≤ addr - s.params.blockBase) →
      ∃ t, step s = .next t ∧ t.fault = true ∧ t.fcode = .busError) ∧
    (∀ w, s.pending = .write s.params.blockBase (.word w) :: rest → ∀ u,
      u = { s with pending := rest, busReply := .written } →
      (s.fault = true → step s = .next u) ∧
      (s.fault = false →
        (∀ why, decode w = .illegal why →
          step s = .next { u with fault := true, fcode := .illegalCmd }) ∧
        (∀ m v, decode w = .command (.cfg m v) → s.cfgDone = true →
          step s = .next { u with fault := true, fcode := .reconfigure }) ∧
        (∀ v, decode w = .command (.setTop v) ∨ decode w = .command (.setDuty v) →
          s.cfgDone = false →
          step s = .next { u with fault := true, fcode := .notConfigured }) ∧
        (∀ i, decode w = .command i →
          ((∃ m v, i = .cfg m v) → s.cfgDone = false) →
          ((∃ v, i = .setTop v ∨ i = .setDuty v) → s.cfgDone = true) →
          ∃ t, step s = .next t ∧ exec i u = .next t ∧ t.fault = false ∧ t.fcode = s.fcode)))

/-- R96: what a block with the latch set does. -/
def Obligations.FaultedBlockStillReadsWritesAndTicks : Prop :=
  ∀ (s : State) (rest : List Event), s.params.WellFormed → s.fault = true →
    (∀ w, s.pending = .write s.params.blockBase (.word w) :: rest →
      step s = .next { s with pending := rest, busReply := .written }) ∧
    (∀ v, s.pending = .write (s.params.blockBase + 0x08) (.word v) :: rest →
      step s = .next { s with pending := rest, busReply := .written, freq := v }) ∧
    (∀ v, s.pending = .write (s.params.blockBase + 0x0C) (.word v) :: rest →
      step s = .next { s with pending := rest, busReply := .written, sysclk := v }) ∧
    (∀ r, s.pending = .read .word (s.params.blockBase + offsetOf r) :: rest →
      step s = .next { s with pending := rest, busReply := .data (readReg s r) }) ∧
    (∀ size addr, s.pending = .read size addr :: rest →
      s.params.blockBase ≤ addr → addr < s.params.blockBase + 32 →
      (size ≠ .word ∨ (addr - s.params.blockBase) % 4 ≠ 0 ∨ 0x14 ≤ addr - s.params.blockBase) →
      step s = .next { s with pending := rest, busReply := .data 0 }) ∧
    (∀ addr data, s.pending = .write addr data :: rest →
      s.params.blockBase ≤ addr → addr < s.params.blockBase + 32 →
      ((∀ v, data ≠ .word v) ∨ (addr - s.params.blockBase) % 4 ≠ 0 ∨
        addr - s.params.blockBase = 0x04 ∨ addr - s.params.blockBase = 0x10 ∨
        0x14 ≤ addr - s.params.blockBase) →
      step s = .next { s with pending := rest, busReply := .written }) ∧
    (s.pending = .tick :: rest →
      ∃ t u, step s = .next t ∧ step { s with fault := false, fcode := .none } = .next u ∧
        t = { u with fault := true, fcode := s.fcode }) ∧
    (∀ t, step s = .next t → t.fault = false → s.pending = .reset :: s.pending.tail)

/-! ### The six commands -/

/-- R75 and R98: CFG. Its words are those of R61's row; it is discarded while FAULT = 1, raises
RECONFIGURE when CFG_DONE = 1, and otherwise makes exactly the writes of R75. -/
def Obligations.CfgConfiguresOnce : Prop :=
  (∀ w, (∃ m v, decode w = .command (.cfg m v)) ↔
    w &&& 0xFF1F0000#32 = 0x01000000#32 ∧ (w.extractLsb' 21 3).toNat ≤ 4) ∧
  (∀ w : Word, w.extractLsb' 24 8 = 0x01 →
    (w.extractLsb' 16 5 ≠ 0 ∨ 4 < (w.extractLsb' 21 3).toNat) → RaisesIllegalCmd w) ∧
  ∀ (m : PrescaleMode) (v : Half) (s : State),
    (s.fault = true → exec (.cfg m v) s = .next s) ∧
    (s.fault = false → s.cfgDone = true →
      exec (.cfg m v) s = .next { s with fault := true, fcode := .reconfigure }) ∧
    (s.fault = false → s.cfgDone = false →
      exec (.cfg m v) s = .next { s with
        ctrlA := (s.ctrlA &&& ~~~(fieldMask s.params .a)) |||
          (fieldValue s.params .a m &&& fieldMask s.params .a)
        ctrlB := (s.ctrlB &&& ~~~(fieldMask s.params .b)) |||
          (fieldValue s.params .b m &&& fieldMask s.params .b)
        activeMode := m
        topReg := v
        dutyReg := v >>> 1
        pinDriven := true
        cfgDone := true }) ∧
    (s.fault = false → s.cfgDone = false → s.params = Params.refAvrT1 →
      s.ctrlA = 0x0C → s.ctrlB = 0xC0 →
      exec (.cfg .freq1024 34) s = .next { s with
        ctrlA := 0xCE, ctrlB := 0xDD, activeMode := .freq1024, topReg := 34, dutyReg := 17
        pinDriven := true, cfgDone := true })

/-- R78: SETTOP. -/
def Obligations.SetTopWritesTopOnly : Prop :=
  (∀ w, (∃ v, decode w = .command (.setTop v)) ↔ w &&& 0xFFFF0000#32 = 0x02000000#32) ∧
  (∀ w : Word, w.extractLsb' 24 8 = 0x02 →
    (w.extractLsb' 16 5 ≠ 0 ∨ w.extractLsb' 21 3 ≠ 0) → RaisesIllegalCmd w) ∧
  ∀ (v : Half) (s : State),
    (s.fault = true → exec (.setTop v) s = .next s) ∧
    (s.fault = false → s.cfgDone = false →
      exec (.setTop v) s = .next { s with fault := true, fcode := .notConfigured }) ∧
    (s.fault = false → s.cfgDone = true → exec (.setTop v) s = .next { s with topReg := v }) ∧
    (∀ t, s.fault = false → s.cfgDone = false → exec (.cfg .freq1024 0) s = .next t →
      exec (.setTop 125) t = .next { t with topReg := 125, dutyReg := 0 })

/-- R80: SETDUTY. -/
def Obligations.SetDutyWritesHalfOnly : Prop :=
  (∀ w, (∃ v, decode w = .command (.setDuty v)) ↔ w &&& 0xFFFF0000#32 = 0x03000000#32) ∧
  (∀ w : Word, w.extractLsb' 24 8 = 0x03 →
    (w.extractLsb' 16 5 ≠ 0 ∨ w.extractLsb' 21 3 ≠ 0) → RaisesIllegalCmd w) ∧
  ∀ (v : Half) (s : State),
    (s.fault = true → exec (.setDuty v) s = .next s) ∧
    (s.fault = false → s.cfgDone = false →
      exec (.setDuty v) s = .next { s with fault := true, fcode := .notConfigured }) ∧
    (s.fault = false → s.cfgDone = true →
      exec (.setDuty v) s = .next { s with dutyReg := v >>> 1 }) ∧
    (s.fault = false → s.cfgDone = true →
      exec (.setDuty 125) s = .next { s with dutyReg := 62 })

/-- R85: CALC, on naturals with floor division, its three rejections in order. -/
def Obligations.CalcComputesTop : Prop :=
  (∀ w, (∃ m, decode w = .command (.calcTop m)) ↔
    w &&& 0xFF1FFFFF#32 = 0x04000000#32 ∧ (w.extractLsb' 21 3).toNat ≤ 4) ∧
  (∀ w : Word, w.extractLsb' 24 8 = 0x04 →
    (w.extractLsb' 16 5 ≠ 0 ∨ w.extractLsb' 0 16 ≠ 0 ∨ 4 < (w.extractLsb' 21 3).toNat) →
    RaisesIllegalCmd w) ∧
  ∀ (m : PrescaleMode) (s : State) (q : Nat),
    (s.fault = true → exec (.calcTop m) s = .next s) ∧
    (s.fault = false → s.freq.toNat = 0 →
      exec (.calcTop m) s = .next { s with range := true }) ∧
    (s.fault = false → s.freq.toNat ≠ 0 → q = s.sysclk.toNat / divisor m / s.freq.toNat →
      (q = 0 ∨ 0xFFFF < q - 1 → exec (.calcTop m) s = .next { s with range := true }) ∧
      (q ≠ 0 → q - 1 ≤ 0xFFFF →
        exec (.calcTop m) s = .next { s with result := BitVec.ofNat 32 (q - 1), range := false })) ∧
    (s.fault = false → s.freq = 440 → s.sysclk = 16000000 →
      exec (.calcTop .freq1024) s = .next { s with result := 34, range := false })

/-- R71: DIV, with the divisor table. -/
def Obligations.DivReadsTheDivisor : Prop :=
  (∀ w, (∃ m, decode w = .command (.div m)) ↔
    w &&& 0xFF1FFFFF#32 = 0x05000000#32 ∧ (w.extractLsb' 21 3).toNat ≤ 4) ∧
  (∀ w : Word, w.extractLsb' 24 8 = 0x05 →
    (w.extractLsb' 16 5 ≠ 0 ∨ w.extractLsb' 0 16 ≠ 0 ∨ 4 < (w.extractLsb' 21 3).toNat) →
    RaisesIllegalCmd w) ∧
  ∀ (m : PrescaleMode) (s : State),
    (s.fault = true → exec (.div m) s = .next s) ∧
    (s.fault = false → exec (.div m) s = .next { s with
      result := match m with
        | .direct => 1 | .freq8 => 8 | .freq64 => 64 | .freq256 => 256 | .freq1024 => 1024 }) ∧
    (s.fault = false → exec (.div .freq64) s = .next { s with result := 0x40 })

/-- R73: ENC reads the parameter table only; the upper bits of RESULT are zero, and after CFG the code
of ACTIVE_MODE is the clock-select field of the timer register image. -/
def Obligations.EncReadsTheClockSelectCode : Prop :=
  (∀ w, (∃ m, decode w = .command (.enc m)) ↔
    w &&& 0xFF1FFFFF#32 = 0x06000000#32 ∧ (w.extractLsb' 21 3).toNat ≤ 4) ∧
  (∀ w : Word, w.extractLsb' 24 8 = 0x06 →
    (w.extractLsb' 16 5 ≠ 0 ∨ w.extractLsb' 0 16 ≠ 0 ∨ 4 < (w.extractLsb' 21 3).toNat) →
    RaisesIllegalCmd w) ∧
  ∀ (m : PrescaleMode) (s : State),
    (s.fault = true → exec (.enc m) s = .next s) ∧
    (s.fault = false → exec (.enc m) s = .next { s with
      result := match m with
        | .direct => s.params.csCodes.direct | .freq8 => s.params.csCodes.freq8
        | .freq64 => s.params.csCodes.freq64 | .freq256 => s.params.csCodes.freq256
        | .freq1024 => s.params.csCodes.freq1024 }) ∧
    (s.params.WellFormed → (csCode s.params m).toNat < 2 ^ s.params.csW) ∧
    (s.Inv → s.cfgDone = true → csCode s.params s.activeMode = s.csField) ∧
    (s.fault = false → s.params = Params.refAvrT1 →
      exec (.enc .freq256) s = .next { s with result := 4 })

/-- What each command may change when it answers a next state, all other fields being named as
unchanged by the record: no command changes FREQ, SYSCLK, TCNT, OUT or the configuration. -/
def Obligations.CommandFrames : Prop :=
  ∀ s t : State,
    (∀ m v, exec (.cfg m v) s = .next t →
      t = { s with
        ctrlA := t.ctrlA, ctrlB := t.ctrlB, activeMode := t.activeMode, topReg := t.topReg,
        dutyReg := t.dutyReg, pinDriven := t.pinDriven, cfgDone := t.cfgDone,
        fault := t.fault, fcode := t.fcode } ∧
      (t.fault ≠ s.fault → t = { s with fault := true, fcode := .reconfigure }) ∧
      (t.fault = s.fault → t.fcode = s.fcode)) ∧
    (∀ v, exec (.setTop v) s = .next t →
      t = { s with topReg := t.topReg, fault := t.fault, fcode := t.fcode } ∧
      (t.fault ≠ s.fault → t = { s with fault := true, fcode := .notConfigured }) ∧
      (t.fault = s.fault → t.fcode = s.fcode)) ∧
    (∀ v, exec (.setDuty v) s = .next t →
      t = { s with dutyReg := t.dutyReg, fault := t.fault, fcode := t.fcode } ∧
      (t.fault ≠ s.fault → t = { s with fault := true, fcode := .notConfigured }) ∧
      (t.fault = s.fault → t.fcode = s.fcode)) ∧
    (∀ m, exec (.calcTop m) s = .next t →
      t = { s with result := t.result, range := t.range } ∧
      (t.range = true → t.result = s.result)) ∧
    (∀ m, exec (.div m) s = .next t ∨ exec (.enc m) s = .next t →
      t = { s with result := t.result })

/-- R44, for commands: the same SETTOP, SETDUTY, CALC, DIV or ENC twice in a row leaves what one leaves
(for SETTOP also R79 (a)); a second CFG is a fault. -/
def Obligations.RepeatedCommandsAreIdempotent : Prop :=
  (∀ (i : Instr) (s t : State), (∀ m v, i ≠ .cfg m v) → exec i s = .next t →
    exec i t = .next t) ∧
  (∀ (m n : PrescaleMode) (v u : Half) (s t : State), s.fault = false → s.cfgDone = false →
    exec (.cfg m v) s = .next t →
    exec (.cfg n u) t = .next { t with fault := true, fcode := .reconfigure })

/-! ### Masks and the timer register image -/

/-- R9, bit by bit, under a well-formed configuration: a mask bit is set exactly where some piece of
the register lies; under the mask the value has the bit of that piece, with CS_CODE in the
clock-select piece; and it has no bit outside the mask. Then the values under REF-AVR-T1. -/
def Obligations.MasksAndValuesAreBuiltFromPieces : Prop :=
  (∀ (p : Params) (r : CtrlReg) (m : PrescaleMode) (i : Nat), p.WellFormed → i < 32 →
    ((fieldMask p r).getLsbD i = true ↔
      (∃ q ∈ p.wgmPieces, q.reg = r ∧ q.lsb ≤ i ∧ i < q.lsb + q.width) ∨
      (p.comPiece.reg = r ∧ p.comPiece.lsb ≤ i ∧ i < p.comPiece.lsb + p.comPiece.width) ∨
      (p.csPiece.reg = r ∧ p.csPiece.lsb ≤ i ∧ i < p.csPiece.lsb + p.csW)) ∧
    (∀ q ∈ p.wgmPieces, q.reg = r → q.lsb ≤ i → i < q.lsb + q.width →
      (fieldValue p r m).getLsbD i = q.value.getLsbD (i - q.lsb)) ∧
    (p.comPiece.reg = r → p.comPiece.lsb ≤ i → i < p.comPiece.lsb + p.comPiece.width →
      (fieldValue p r m).getLsbD i = p.comPiece.value.getLsbD (i - p.comPiece.lsb)) ∧
    (p.csPiece.reg = r → p.csPiece.lsb ≤ i → i < p.csPiece.lsb + p.csW →
      (fieldValue p r m).getLsbD i = (csCode p m).getLsbD (i - p.csPiece.lsb)) ∧
    ((fieldMask p r).getLsbD i = false → (fieldValue p r m).getLsbD i = false)) ∧
  fieldMask Params.refAvrT1 .a = 0xC3 ∧ fieldMask Params.refAvrT1 .b = 0x1F ∧
  ∀ m, fieldValue Params.refAvrT1 .a m = 0xC2 ∧
    fieldValue Params.refAvrT1 .b m = 0x18 ||| csCode Params.refAvrT1 m

/-- R76: the masked-update law, and that the clock-select field after CFG holds CS_CODE(m). The bits
under the mask are those of the value alone, so they do not depend on the old ones. -/
def Obligations.CfgPreservesUnrelatedBits : Prop :=
  ∀ (s : State) (m : PrescaleMode) (v : Half), s.params.WellFormed → s.fault = false →
    s.cfgDone = false →
    ∃ t, exec (.cfg m v) s = .next t ∧
      (∀ r i, i < 32 → (fieldMask s.params r).getLsbD i = false →
        (t.ctrl r).getLsbD i = (s.ctrl r).getLsbD i) ∧
      (∀ r i, i < 32 → (fieldMask s.params r).getLsbD i = true →
        (t.ctrl r).getLsbD i = (fieldValue s.params r m).getLsbD i) ∧
      t.csField = csCode s.params m

/-! ### The tables and the translator's arithmetic -/

/-- R72: the divisor table is injective and increasing in the MODE index, every value is the named
power of two, and RESULT[31:11] is zero after DIV. -/
def Obligations.DivisorTableLaws : Prop :=
  (∀ m n, divisor m = divisor n → m = n) ∧
  (∀ m n : PrescaleMode, m.index.toNat < n.index.toNat → divisor m < divisor n) ∧
  divisor .direct = 2 ^ 0 ∧ divisor .freq8 = 2 ^ 3 ∧ divisor .freq64 = 2 ^ 6 ∧
  divisor .freq256 = 2 ^ 8 ∧ divisor .freq1024 = 2 ^ 10 ∧
  (∀ (m : PrescaleMode) (s : State), s.fault = false →
    ∃ t, exec (.div m) s = .next t ∧ t.result.extractLsb' 11 21 = 0)

/-- R74: under a well-formed configuration two modes never get one code, so ENC tells them apart. -/
def Obligations.EncTellsModesApart : Prop :=
  ∀ (s t u : State) (m n : PrescaleMode), s.params.WellFormed → s.fault = false →
    exec (.enc m) s = .next t → exec (.enc n) s = .next u → t.result = u.result → m = n

/-- R86 and R87: a CALC is rejected exactly when f = 0, f > tc or q - 1 > 65535; then RANGE is set and
nothing else changes. Otherwise it is accepted, the result 0 included. -/
def Obligations.CalcRejectsExactlyTheOutOfRange : Prop :=
  ∀ (s : State) (m : PrescaleMode) (tc : Nat), s.fault = false →
    tc = s.sysclk.toNat / divisor m →
    (s.freq.toNat ≠ 0 → (tc / s.freq.toNat = 0 ↔ tc < s.freq.toNat)) ∧
    ((s.freq.toNat = 0 ∨ tc < s.freq.toNat ∨ 65535 < tc / s.freq.toNat - 1) →
      exec (.calcTop m) s = .next { s with range := true }) ∧
    (¬ (s.freq.toNat = 0 ∨ tc < s.freq.toNat ∨ 65535 < tc / s.freq.toNat - 1) →
      ∃ t, exec (.calcTop m) s = .next t ∧ t = { s with result := t.result, range := false } ∧
        t.result.toNat + 1 = tc / s.freq.toNat)

/-- R91: where CALC is accepted, and when its result is 0. -/
def Obligations.CalcAcceptedExactlyInRange : Prop :=
  ∀ (s : State) (m : PrescaleMode) (tc : Nat), s.fault = false →
    tc = s.sysclk.toNat / divisor m →
    ∃ t, exec (.calcTop m) s = .next t ∧
      (t.range = false ↔
        1 ≤ s.freq.toNat ∧ s.freq.toNat ≤ tc ∧ tc / s.freq.toNat ≤ 65536) ∧
      (t.range = false →
        (t.result = 0 ↔ tc < 2 * s.freq.toNat ∧ s.freq.toNat ≤ tc) ∧
        (t.result = 0 ↔ tc / s.freq.toNat = 1)) ∧
      (1 ≤ s.freq.toNat → s.freq.toNat = tc → t.range = false ∧ t.result = 0)

/-- R89: nested floor division, and what it says of an accepted CALC. -/
def Obligations.CalcIsOneDivision : Prop :=
  (∀ clk d f : Nat, 1 ≤ f → clk / d / f = clk / (d * f)) ∧
  ∀ (s t : State) (m : PrescaleMode), s.fault = false → exec (.calcTop m) s = .next t →
    t.range = false →
    t.result.toNat = s.sysclk.toNat / (divisor m * s.freq.toNat) - 1 ∧
    1 ≤ s.sysclk.toNat / (divisor m * s.freq.toNat)

/-- R90: for fixed mode and clock, a higher frequency gives a smaller or equal TOP; above a frequency
rejected as too high all are, and below one rejected as too low all are, down to 1. -/
def Obligations.CalcIsMonotone : Prop :=
  ∀ (s₁ s₂ t₁ t₂ : State) (m : PrescaleMode), s₁.fault = false → s₂.fault = false →
    s₁.sysclk = s₂.sysclk → 1 ≤ s₁.freq.toNat → s₁.freq.toNat ≤ s₂.freq.toNat →
    exec (.calcTop m) s₁ = .next t₁ → exec (.calcTop m) s₂ = .next t₂ →
    (t₁.range = false → t₂.range = false → t₂.result.toNat ≤ t₁.result.toNat) ∧
    (s₁.sysclk.toNat / divisor m / s₁.freq.toNat = 0 →
      s₂.sysclk.toNat / divisor m / s₂.freq.toNat = 0 ∧ t₂ = { s₂ with range := true }) ∧
    (65535 < s₂.sysclk.toNat / divisor m / s₂.freq.toNat - 1 →
      65535 < s₁.sysclk.toNat / divisor m / s₁.freq.toNat - 1 ∧ t₁ = { s₁ with range := true })

/-- The bounds of R92 on the frequency SYSCLK / (d × (t + 1)) that an accepted result t stands for: at
least f, and below f × (q + 1) / q with q = t + 1 when d divides SYSCLK. Stated without division. -/
def Obligations.ProducedFrequencyIsClose : Prop :=
  ∀ (s t : State) (m : PrescaleMode), s.fault = false → exec (.calcTop m) s = .next t →
    t.range = false →
    s.freq.toNat * (divisor m * (t.result.toNat + 1)) ≤ s.sysclk.toNat ∧
    (divisor m ∣ s.sysclk.toNat →
      s.sysclk.toNat < s.freq.toNat * (divisor m * (t.result.toNat + 2)))

/-! ### The TIMER agent and the pin -/

/-- R110, with the count of R111 and the output of R113 written out: a tick changes nothing before CFG,
and after it sets TCNT and OUT from the registers as they stand, fault or no fault. That a tick before
CFG is passed over is the model's form of "no step" (log 9). -/
def Obligations.TickCountsAndCompares : Prop :=
  ∀ (s : State) (rest : List Event), s.params.WellFormed → s.pending = .tick :: rest →
    (s.cfgDone = false → step s = .next { s with pending := rest }) ∧
    (s.cfgDone = true → ∃ (c : Half) (o : Bool),
      step s = .next { s with pending := rest, tcnt := c, out := o } ∧
      (s.tcnt = s.topReg → c = 0) ∧
      (s.topReg.toNat < s.tcnt.toNat → s.params.overshoot = .resetNow → c = 0) ∧
      (s.topReg.toNat < s.tcnt.toNat → s.params.overshoot = .countToMax → c = s.tcnt + 1) ∧
      (s.tcnt.toNat < s.topReg.toNat → c = s.tcnt + 1) ∧
      (c = 0 → c = s.dutyReg → (o = true ↔ s.params.coincide = .setWins)) ∧
      (c = 0 → c ≠ s.dutyReg → o = false) ∧
      (c ≠ 0 → c = s.dutyReg → o = true) ∧
      (c ≠ 0 → c ≠ s.dutyReg → o = s.out))

/-- R111 over any number of ticks: at or below TOP the count cycles through TOP + 1 states; above it,
it runs on to 0xFFFF and wraps to 0, or returns to 0 at the next tick, as OVERSHOOT says (R122). -/
def Obligations.CounterCyclesThroughTopPlusOneStates : Prop :=
  ∀ (n : Nat) (s : State) (rest : List Event), s.params.WellFormed → s.cfgDone = true →
    s.pending = List.replicate n Event.tick ++ rest →
    ∃ t, runSteps n s = .next t ∧ t = { s with pending := rest, tcnt := t.tcnt, out := t.out } ∧
      (s.tcnt.toNat ≤ s.topReg.toNat →
        t.tcnt.toNat = (s.tcnt.toNat + n) % (s.topReg.toNat + 1)) ∧
      (s.topReg.toNat < s.tcnt.toNat → s.params.overshoot = .countToMax →
        s.tcnt.toNat + n ≤ 65536 → t.tcnt.toNat = (s.tcnt.toNat + n) % 65536) ∧
      (s.topReg.toNat < s.tcnt.toNat → s.params.overshoot = .resetNow → n = 1 → t.tcnt = 0)

/-- R113 over any number of ticks, TOP_REG and DUTY_REG held: with 1 ≤ DUTY ≤ TOP the output is high
exactly from DUTY to TOP, from a start where it is so or after the first bottom; after the first bottom
it is low for DUTY > TOP, and as COINCIDE says for DUTY = 0. -/
def Obligations.OutputIsHighFromDutyToTop : Prop :=
  ∀ (n : Nat) (s : State) (rest : List Event), s.params.WellFormed → s.cfgDone = true →
    s.pending = List.replicate n Event.tick ++ rest → s.tcnt.toNat ≤ s.topReg.toNat →
    ∃ t, runSteps n s = .next t ∧
      (1 ≤ s.dutyReg.toNat → s.dutyReg.toNat ≤ s.topReg.toNat →
        ((s.out = true ↔ s.dutyReg.toNat ≤ s.tcnt.toNat) ∨
          s.topReg.toNat + 1 ≤ s.tcnt.toNat + n) →
        (t.out = true ↔ s.dutyReg.toNat ≤ (s.tcnt.toNat + n) % (s.topReg.toNat + 1))) ∧
      (s.topReg.toNat < s.dutyReg.toNat → s.topReg.toNat + 1 ≤ s.tcnt.toNat + n →
        t.out = false) ∧
      (s.dutyReg.toNat = 0 → s.topReg.toNat + 1 ≤ s.tcnt.toNat + n →
        (t.out = true ↔ s.params.coincide = .setWins))

/-- R113's count: from the state right after CFG (count 0, output low), with 1 ≤ DUTY ≤ TOP, the output
is high on TOP - DUTY + 1 of the next TOP + 1 ticks. -/
def Obligations.HighTicksPerPeriod : Prop :=
  ∀ (s : State) (rest : List Event), s.params.WellFormed → s.cfgDone = true →
    s.tcnt = 0 → s.out = false →
    1 ≤ s.dutyReg.toNat → s.dutyReg.toNat ≤ s.topReg.toNat →
    s.pending = List.replicate (s.topReg.toNat + 1) Event.tick ++ rest →
    (∀ k, k ≤ s.topReg.toNat → ∃ t, runSteps (k + 1) s = .next t) ∧
    ((List.range (s.topReg.toNat + 1)).filter fun k => outAfter (k + 1) s).length =
      s.topReg.toNat - s.dutyReg.toNat + 1

/-- R114: the pin shows OUT when driven and no value otherwise, and in every state of a run (the
invariant) it is driven only when the counter runs. -/
def Obligations.PinIsDrivenOnlyWhileTheCounterRuns : Prop :=
  ∀ s : State,
    (s.pinDriven = true → pinLevel s = some s.out) ∧
    (s.pinDriven = false → pinLevel s = none) ∧
    (s.Inv → ∀ level, pinLevel s = some level → s.cfgDone = true)

/-! ### Reset and the whole machine -/

/-- R117 and R118: what the reset transition leaves, from any state, for any TIMER_INIT. The events
still to come stay (log 7) and the bus has answered nothing (log 10). -/
def Obligations.ResetSetsEveryRegister : Prop :=
  ∀ (s : State) (rest : List Event), s.params.WellFormed → s.pending = .reset :: rest →
    ∃ t, step s = .next t ∧
      t.freq = 0 ∧ t.sysclk = 0 ∧ t.result = 0 ∧
      t.cfgDone = false ∧ t.pinDriven = false ∧ t.range = false ∧ t.fault = false ∧
      t.fcode = .none ∧ t.activeMode = .direct ∧ t.tcnt = 0 ∧ t.out = false ∧
      statusWord t = 0 ∧ pinLevel t = none ∧
      t.ctrlA = s.params.timerInit.ctrlA ∧ t.ctrlB = s.params.timerInit.ctrlB ∧
      t.topReg = s.params.timerInit.topReg ∧ t.dutyReg = s.params.timerInit.dutyReg ∧
      t.params = s.params ∧ t.pending = rest ∧ t.busReply = .none ∧
      t = { State.resetWith s.params with pending := rest }

/-- The state right after reset meets the invariant, under every well-formed configuration. -/
def Obligations.InvariantHoldsAtReset : Prop :=
  (∀ p : Params, p.WellFormed → (State.resetWith p).Inv) ∧ State.reset.Inv

/-- Every step keeps the invariant: the widths of the control registers, the latch, the pin with
CFG_DONE, the timer at TIMER_INIT before CFG, and after CFG the pieces of the control registers at
their legal values for ACTIVE_MODE with every other bit as TIMER_INIT gave it. -/
def Obligations.InvariantIsKeptByEveryStep : Prop :=
  ∀ s t : State, s.Inv → step s = .next t → t.Inv

/-- Until a reset nothing leaves these states (R22, R23, R24, R26, R84, R116): FAULT and FCODE, once
latched, CFG_DONE, PIN_DRIVEN, and, once CFG_DONE is set, ACTIVE_MODE and both control registers stay
as they are, over any number of steps. -/
def Obligations.LatchAndConfigurationLastUntilReset : Prop :=
  ∀ (n : Nat) (s t : State), (∀ e ∈ s.pending, e.isNotReset = true) → runSteps n s = .next t →
    (s.fault = true → t.fault = true ∧ t.fcode = s.fcode) ∧
    (s.pinDriven = true → t.pinDriven = true) ∧
    (s.cfgDone = true → t.cfgDone = true ∧ t.activeMode = s.activeMode ∧
      t.ctrlA = s.ctrlA ∧ t.ctrlB = s.ctrlB)

/-- The "written by" column of R15: each register, FAULT and FCODE included, changes only by the host
access, command or tick that the table names, or by a reset. The latch is entered only from FAULT = 0
and only by the four causes of R94, with the code of the cause. That a bus error's access starts
inside the window is the model's choice (log 11). -/
def Obligations.RegistersChangeOnlyByTheirWriters : Prop :=
  ∀ s t : State, step s = .next t → s.pending ≠ .reset :: s.pending.tail →
    (t.freq ≠ s.freq → ∃ (v : Word) (rest : List Event),
      s.pending = .write (s.params.blockBase + 0x08) (.word v) :: rest ∧ t.freq = v) ∧
    (t.sysclk ≠ s.sysclk → ∃ (v : Word) (rest : List Event),
      s.pending = .write (s.params.blockBase + 0x0C) (.word v) :: rest ∧ t.sysclk = v) ∧
    (t.result ≠ s.result → ∃ (w : Word) (rest : List Event) (m : PrescaleMode),
      s.pending = .write s.params.blockBase (.word w) :: rest ∧
      (decode w = .command (.calcTop m) ∧ t.range = false ∨ decode w = .command (.div m) ∨
        decode w = .command (.enc m))) ∧
    (t.range ≠ s.range → ∃ (w : Word) (rest : List Event) (m : PrescaleMode),
      s.pending = .write s.params.blockBase (.word w) :: rest ∧
      decode w = .command (.calcTop m)) ∧
    ((t.cfgDone ≠ s.cfgDone ∨ t.pinDriven ≠ s.pinDriven ∨ t.activeMode ≠ s.activeMode ∨
        t.ctrlA ≠ s.ctrlA ∨ t.ctrlB ≠ s.ctrlB) → ∃ (w : Word) (rest : List Event) (m : PrescaleMode) (v : Half),
      s.pending = .write s.params.blockBase (.word w) :: rest ∧
      decode w = .command (.cfg m v)) ∧
    (t.topReg ≠ s.topReg → ∃ (w : Word) (rest : List Event) (v : Half),
      s.pending = .write s.params.blockBase (.word w) :: rest ∧ t.topReg = v ∧
      ((∃ m, decode w = .command (.cfg m v)) ∨ decode w = .command (.setTop v))) ∧
    (t.dutyReg ≠ s.dutyReg → ∃ (w : Word) (rest : List Event) (v : Half),
      s.pending = .write s.params.blockBase (.word w) :: rest ∧ t.dutyReg = v >>> 1 ∧
      ((∃ m, decode w = .command (.cfg m v)) ∨ decode w = .command (.setDuty v))) ∧
    ((t.fault ≠ s.fault ∨ t.fcode ≠ s.fcode) →
      s.fault = false ∧ t.fault = true ∧
      ((t.fcode = .busError ∧
          ∃ (e : Event) (rest : List Event), s.pending = e :: rest ∧ e.IsBusError s.params) ∨
        ∃ (w : Word) (rest : List Event),
          s.pending = .write s.params.blockBase (.word w) :: rest ∧
          ((t.fcode = .illegalCmd ∧ ∃ why, decode w = .illegal why) ∨
            (t.fcode = .reconfigure ∧ s.cfgDone = true ∧
              ∃ m v, decode w = .command (.cfg m v)) ∨
            (t.fcode = .notConfigured ∧ s.cfgDone = false ∧
              ∃ v, decode w = .command (.setTop v) ∨ decode w = .command (.setDuty v))))) ∧
    ((t.tcnt ≠ s.tcnt ∨ t.out ≠ s.out) →
      s.cfgDone = true ∧ s.pending = .tick :: s.pending.tail) ∧
    t.params = s.params

/-- Ticks are invisible to the block and the host (R49, R115): taking every tick out of the events to
come changes nothing at the end but TCNT and OUT. -/
def Obligations.TicksChangeNothingButCountAndOutput : Prop :=
  ∀ s : State, s.params.WellFormed →
    ∃ t u, runSteps s.pending.length s = .next t ∧
      runSteps (s.pending.filter Event.isNotTick).length
        { s with pending := s.pending.filter Event.isNotTick } = .next u ∧
      { t with tcnt := 0, out := false } = { u with tcnt := 0, out := false } ∧
      t.hostView = u.hostView

/-- The timer register image, TCNT and OUT are hidden from the host (R31, R32, R115): two states that
differ only there give the same host view after any number of steps, and again differ only there. -/
def Obligations.TimerImageIsHiddenFromTheHost : Prop :=
  ∀ (n : Nat) (s : State) (a b : Word) (top duty count : Half) (o : Bool), s.params.WellFormed →
    ∃ t u, runSteps n s = .next t ∧
      runSteps n { s with
        ctrlA := a, ctrlB := b, topReg := top, dutyReg := duty, tcnt := count, out := o }
        = .next u ∧
      { t with ctrlA := 0, ctrlB := 0, topReg := 0, dutyReg := 0, tcnt := 0, out := false } =
        { u with ctrlA := 0, ctrlB := 0, topReg := 0, dutyReg := 0, tcnt := 0, out := false } ∧
      t.hostView = u.hostView

/-! ### Pseudo-instructions -/

/-- STEP x on a configured block (R69, R81): TOP_REG becomes x and DUTY_REG half of it. -/
def Obligations.StepPseudoSetsTopAndDuty : Prop :=
  ∀ (s : State) (x : Half) (rest : List Event), s.params.WellFormed → s.fault = false →
    s.cfgDone = true → s.pending = stepEvents s.params x ++ rest →
    runSteps 2 s = .next { s with
      topReg := x, dutyReg := x >>> 1, pending := rest, busReply := .written }

/-- TOPFOR (R69): the fourth access returns STATUS and the fifth RESULT; STATUS[2] is 0 exactly when
the frequency is in range, then RESULT + 1 is the quotient, and otherwise RESULT is the old one
(R86, R125). -/
def Obligations.TopForReturnsTheTranslation : Prop :=
  ∀ (s : State) (m : PrescaleMode) (f clk : Word) (rest : List Event) (q : Nat),
    s.params.WellFormed → s.fault = false → q = clk.toNat / divisor m / f.toNat →
    s.pending = topforEvents s.params m f clk ++ rest →
    ∃ t u status result, runSteps 4 s = .next t ∧ t.busReply = .data status ∧
      runSteps 5 s = .next u ∧ u.busReply = .data result ∧ u.pending = rest ∧
      (status.getLsbD 2 = false ↔ f.toNat ≠ 0 ∧ 1 ≤ q ∧ q ≤ 65536) ∧
      (status.getLsbD 2 = false → result.toNat + 1 = q) ∧
      (status.getLsbD 2 = true → result = s.result)
end

