-- ==== Sys2Proof/Laws/Decode.lean ====
section
/-! SUPPORT. Laws of the fields, the decoder and the byte lanes. -/

namespace Sys2Proof

/-- The fields of the word with given fields are those fields. -/
@[simp] theorem rawOfWord_wordOfRaw (r : RawCommand) : rawOfWord (wordOfRaw r) = r := by
  obtain ⟨o, m, v, i⟩ := r
  simp only [rawOfWord, wordOfRaw, RawCommand.mk.injEq]
  refine ⟨?_, ?_, ?_, ?_⟩ <;>
    (apply BitVec.eq_of_getLsbD_eq
     intro k hk
     simp only [BitVec.getLsbD_extractLsb', BitVec.getLsbD_append]
     interval_cases k <;> rfl)

/-- The word with the fields of a word is that word. -/
@[simp] theorem wordOfRaw_rawOfWord (w : Word) : wordOfRaw (rawOfWord w) = w := by
  apply BitVec.eq_of_getLsbD_eq
  intro k hk
  simp only [rawOfWord, wordOfRaw, BitVec.getLsbD_append, BitVec.getLsbD_extractLsb']
  interval_cases k <;> rfl

/-- Two words with the same fields are the same word. -/
theorem rawOfWord_inj {w v : Word} (h : rawOfWord w = rawOfWord v) : w = v := by
  rw [← wordOfRaw_rawOfWord w, h, wordOfRaw_rawOfWord]

/-- Every mode is named by its index. -/
@[simp] theorem modeOfIndex_index (m : PrescaleMode) : modeOfIndex m.index = some m := by
  cases m <;> rfl

/-- The mode an index names has that index. -/
theorem modeOfIndex_eq_some {b : BitVec 3} {m : PrescaleMode} :
    modeOfIndex b = some m ↔ b = m.index := by
  constructor
  · revert b m
    intro b m
    cases m <;> revert b <;> decide
  · rintro rfl
    exact modeOfIndex_index m

/-- An index names a mode exactly when it is at most 4 (R58). -/
theorem modeOfIndex_isSome {b : BitVec 3} : (modeOfIndex b).isSome = true ↔ b.toNat ≤ 4 := by
  revert b
  decide

/-- Equal indexes are equal modes. -/
theorem PrescaleMode.index_inj {m n : PrescaleMode} (h : m.index = n.index) : m = n := by
  have := modeOfIndex_index m
  rw [h, modeOfIndex_index] at this
  exact (Option.some.inj this).symm

/-- A mode index is at most 4 (R60). -/
theorem PrescaleMode.index_le (m : PrescaleMode) : m.index.toNat ≤ 4 := by
  cases m <;> decide

/-- The fields of an instruction's word. -/
@[simp] theorem rawOfWord_encode (i : Instr) : rawOfWord (encode i) = rawOfInstr i :=
  rawOfWord_wordOfRaw _

/-- A word read from its own four lanes is that word (R37). -/
theorem wordOfLanes_lanes (w : Word) :
    wordOfLanes (laneOfWord w 0) (laneOfWord w 1) (laneOfWord w 2) (laneOfWord w 3) = w := by
  apply BitVec.eq_of_getLsbD_eq
  intro k hk
  simp only [wordOfLanes, laneOfWord, BitVec.getLsbD_append, BitVec.getLsbD_extractLsb']
  interval_cases k <;> rfl

end Sys2Proof
end

