-- ==== Sys2Proof/Laws/Masks.lean ====
section
/-! SUPPORT. The masks and values of the control registers, bit by bit (spec/00_scope.md R9). -/

namespace Sys2Proof.Machine

/-- A bit of a piece's mask is set exactly inside the piece. -/
theorem pieceMask_bit {lsb width i : Nat} (hi : i < 32) (hw : lsb + width ≤ 32) :
    (pieceMask lsb width).getLsbD i = decide (lsb ≤ i ∧ i < lsb + width) := by
  have hmask : ∀ k, k < 32 → ((1#32 <<< width) - 1#32).getLsbD k = decide (k < width) := by
    intro k hk
    have h2 : ((1#32 <<< width) - 1#32).toNat = 2 ^ width - 1 := by
      rcases Nat.lt_or_ge width 32 with h | h
      · have hp : 2 ^ width < 2 ^ 32 := Nat.pow_lt_pow_right (by omega) h
        have hp' : 0 < 2 ^ width := Nat.two_pow_pos width
        simp only [BitVec.toNat_sub, BitVec.toNat_shiftLeft, BitVec.toNat_ofNat,
          Nat.shiftLeft_eq]
        omega
      · have : width = 32 := by omega
        subst this
        rfl
    rw [BitVec.getLsbD, h2, Nat.testBit_two_pow_sub_one]
  unfold pieceMask
  rw [BitVec.getLsbD_shiftLeft]
  by_cases h : lsb ≤ i
  · rw [hmask _ (by omega)]
    simp only [hi, h, decide_true, Bool.true_and, true_and]
    rw [Bool.eq_iff_iff]
    simp
    omega
  · simp [h]

/-- The masked update, bit by bit (R41). -/
theorem maskedUpdate_bit (old mask value : Word) {i : Nat} (hi : i < 32) :
    (maskedUpdate old mask value).getLsbD i =
      if mask.getLsbD i then value.getLsbD i else old.getLsbD i := by
  unfold maskedUpdate
  simp only [BitVec.getLsbD_or, BitVec.getLsbD_and, BitVec.getLsbD_not, hi, decide_true]
  cases mask.getLsbD i <;> simp

/-- A bit of the union of pieces' masks. -/
theorem foldr_mask_bit (l : List Piece) {i : Nat} (hi : i < 32)
    (hw : ∀ q ∈ l, q.lsb + q.width ≤ 32) :
    (l.foldr (fun q m => pieceMask q.lsb q.width ||| m) (0 : Word)).getLsbD i = true ↔
      ∃ q ∈ l, q.lsb ≤ i ∧ i < q.lsb + q.width := by
  induction l with
  | nil => simp
  | cons q l ih =>
    simp only [List.foldr_cons, BitVec.getLsbD_or, Bool.or_eq_true,
      ih fun q hq => hw q (List.mem_cons_of_mem _ hq),
      pieceMask_bit hi (hw q List.mem_cons_self), decide_eq_true_eq, List.mem_cons]
    constructor
    · rintro (h | ⟨r, hr, h⟩)
      · exact ⟨q, .inl rfl, h⟩
      · exact ⟨r, .inr hr, h⟩
    · rintro ⟨r, rfl | hr, h⟩
      · exact .inl h
      · exact .inr ⟨r, hr, h⟩

/-- A bit of the union of pieces' values. -/
theorem foldr_value_bit (l : List Piece) {i : Nat} (hi : i < 32) :
    (l.foldr (fun q v => (q.value <<< q.lsb) ||| v) (0 : Word)).getLsbD i = true ↔
      ∃ q ∈ l, q.lsb ≤ i ∧ q.value.getLsbD (i - q.lsb) = true := by
  induction l with
  | nil => simp
  | cons q l ih =>
    simp only [List.foldr_cons, BitVec.getLsbD_or, Bool.or_eq_true, ih,
      BitVec.getLsbD_shiftLeft, List.mem_cons]
    constructor
    · rintro (h | ⟨r, hr, h⟩)
      · exact ⟨q, .inl rfl, by simpa [hi] using h⟩
      · exact ⟨r, .inr hr, h⟩
    · rintro ⟨r, rfl | hr, h⟩
      · exact .inl (by simpa [hi] using h)
      · exact .inr ⟨r, hr, h⟩

/-- A value that fits `width` bits has no bit at or above `width`. -/
theorem bit_lt_of_fits {v : Word} {width k : Nat} (h : v.toNat < 2 ^ width)
    (hk : v.getLsbD k = true) : k < width := by
  by_contra hc
  have : v.toNat < 2 ^ k := lt_of_lt_of_le h (Nat.pow_le_pow_right (by omega) (by omega))
  rw [BitVec.getLsbD, Nat.testBit_lt_two_pow this] at hk
  cases hk

end Sys2Proof.Machine
end

