-- ==== Sys2Proof/Laws/State.lean ====
section
/-! SUPPORT. One lemma per field per named update, so that no proof unfolds a record update. -/

namespace Sys2Proof.Machine

variable (s : State)

/-! ### setResult -/

@[simp] theorem State.setResult_freq (v : Word) : (s.setResult v).freq = s.freq := rfl
@[simp] theorem State.setResult_sysclk (v : Word) : (s.setResult v).sysclk = s.sysclk := rfl
@[simp] theorem State.setResult_result (v : Word) : (s.setResult v).result = v := rfl
@[simp] theorem State.setResult_cfgDone (v : Word) : (s.setResult v).cfgDone = s.cfgDone := rfl
@[simp] theorem State.setResult_pinDriven (v : Word) : (s.setResult v).pinDriven = s.pinDriven := rfl
@[simp] theorem State.setResult_range (v : Word) : (s.setResult v).range = s.range := rfl
@[simp] theorem State.setResult_fault (v : Word) : (s.setResult v).fault = s.fault := rfl
@[simp] theorem State.setResult_fcode (v : Word) : (s.setResult v).fcode = s.fcode := rfl
@[simp] theorem State.setResult_activeMode (v : Word) : (s.setResult v).activeMode = s.activeMode := rfl
@[simp] theorem State.setResult_ctrlA (v : Word) : (s.setResult v).ctrlA = s.ctrlA := rfl
@[simp] theorem State.setResult_ctrlB (v : Word) : (s.setResult v).ctrlB = s.ctrlB := rfl
@[simp] theorem State.setResult_topReg (v : Word) : (s.setResult v).topReg = s.topReg := rfl
@[simp] theorem State.setResult_dutyReg (v : Word) : (s.setResult v).dutyReg = s.dutyReg := rfl
@[simp] theorem State.setResult_tcnt (v : Word) : (s.setResult v).tcnt = s.tcnt := rfl
@[simp] theorem State.setResult_out (v : Word) : (s.setResult v).out = s.out := rfl
@[simp] theorem State.setResult_params (v : Word) : (s.setResult v).params = s.params := rfl
@[simp] theorem State.setResult_pending (v : Word) : (s.setResult v).pending = s.pending := rfl
@[simp] theorem State.setResult_busReply (v : Word) : (s.setResult v).busReply = s.busReply := rfl

/-! ### setRange -/

@[simp] theorem State.setRange_freq (b : Bool) : (s.setRange b).freq = s.freq := rfl
@[simp] theorem State.setRange_sysclk (b : Bool) : (s.setRange b).sysclk = s.sysclk := rfl
@[simp] theorem State.setRange_result (b : Bool) : (s.setRange b).result = s.result := rfl
@[simp] theorem State.setRange_cfgDone (b : Bool) : (s.setRange b).cfgDone = s.cfgDone := rfl
@[simp] theorem State.setRange_pinDriven (b : Bool) : (s.setRange b).pinDriven = s.pinDriven := rfl
@[simp] theorem State.setRange_range (b : Bool) : (s.setRange b).range = b := rfl
@[simp] theorem State.setRange_fault (b : Bool) : (s.setRange b).fault = s.fault := rfl
@[simp] theorem State.setRange_fcode (b : Bool) : (s.setRange b).fcode = s.fcode := rfl
@[simp] theorem State.setRange_activeMode (b : Bool) : (s.setRange b).activeMode = s.activeMode := rfl
@[simp] theorem State.setRange_ctrlA (b : Bool) : (s.setRange b).ctrlA = s.ctrlA := rfl
@[simp] theorem State.setRange_ctrlB (b : Bool) : (s.setRange b).ctrlB = s.ctrlB := rfl
@[simp] theorem State.setRange_topReg (b : Bool) : (s.setRange b).topReg = s.topReg := rfl
@[simp] theorem State.setRange_dutyReg (b : Bool) : (s.setRange b).dutyReg = s.dutyReg := rfl
@[simp] theorem State.setRange_tcnt (b : Bool) : (s.setRange b).tcnt = s.tcnt := rfl
@[simp] theorem State.setRange_out (b : Bool) : (s.setRange b).out = s.out := rfl
@[simp] theorem State.setRange_params (b : Bool) : (s.setRange b).params = s.params := rfl
@[simp] theorem State.setRange_pending (b : Bool) : (s.setRange b).pending = s.pending := rfl
@[simp] theorem State.setRange_busReply (b : Bool) : (s.setRange b).busReply = s.busReply := rfl

/-! ### setFreq -/

@[simp] theorem State.setFreq_freq (v : Word) : (s.setFreq v).freq = v := rfl
@[simp] theorem State.setFreq_sysclk (v : Word) : (s.setFreq v).sysclk = s.sysclk := rfl
@[simp] theorem State.setFreq_result (v : Word) : (s.setFreq v).result = s.result := rfl
@[simp] theorem State.setFreq_cfgDone (v : Word) : (s.setFreq v).cfgDone = s.cfgDone := rfl
@[simp] theorem State.setFreq_pinDriven (v : Word) : (s.setFreq v).pinDriven = s.pinDriven := rfl
@[simp] theorem State.setFreq_range (v : Word) : (s.setFreq v).range = s.range := rfl
@[simp] theorem State.setFreq_fault (v : Word) : (s.setFreq v).fault = s.fault := rfl
@[simp] theorem State.setFreq_fcode (v : Word) : (s.setFreq v).fcode = s.fcode := rfl
@[simp] theorem State.setFreq_activeMode (v : Word) : (s.setFreq v).activeMode = s.activeMode := rfl
@[simp] theorem State.setFreq_ctrlA (v : Word) : (s.setFreq v).ctrlA = s.ctrlA := rfl
@[simp] theorem State.setFreq_ctrlB (v : Word) : (s.setFreq v).ctrlB = s.ctrlB := rfl
@[simp] theorem State.setFreq_topReg (v : Word) : (s.setFreq v).topReg = s.topReg := rfl
@[simp] theorem State.setFreq_dutyReg (v : Word) : (s.setFreq v).dutyReg = s.dutyReg := rfl
@[simp] theorem State.setFreq_tcnt (v : Word) : (s.setFreq v).tcnt = s.tcnt := rfl
@[simp] theorem State.setFreq_out (v : Word) : (s.setFreq v).out = s.out := rfl
@[simp] theorem State.setFreq_params (v : Word) : (s.setFreq v).params = s.params := rfl
@[simp] theorem State.setFreq_pending (v : Word) : (s.setFreq v).pending = s.pending := rfl
@[simp] theorem State.setFreq_busReply (v : Word) : (s.setFreq v).busReply = s.busReply := rfl

/-! ### setSysclk -/

@[simp] theorem State.setSysclk_freq (v : Word) : (s.setSysclk v).freq = s.freq := rfl
@[simp] theorem State.setSysclk_sysclk (v : Word) : (s.setSysclk v).sysclk = v := rfl
@[simp] theorem State.setSysclk_result (v : Word) : (s.setSysclk v).result = s.result := rfl
@[simp] theorem State.setSysclk_cfgDone (v : Word) : (s.setSysclk v).cfgDone = s.cfgDone := rfl
@[simp] theorem State.setSysclk_pinDriven (v : Word) : (s.setSysclk v).pinDriven = s.pinDriven := rfl
@[simp] theorem State.setSysclk_range (v : Word) : (s.setSysclk v).range = s.range := rfl
@[simp] theorem State.setSysclk_fault (v : Word) : (s.setSysclk v).fault = s.fault := rfl
@[simp] theorem State.setSysclk_fcode (v : Word) : (s.setSysclk v).fcode = s.fcode := rfl
@[simp] theorem State.setSysclk_activeMode (v : Word) : (s.setSysclk v).activeMode = s.activeMode := rfl
@[simp] theorem State.setSysclk_ctrlA (v : Word) : (s.setSysclk v).ctrlA = s.ctrlA := rfl
@[simp] theorem State.setSysclk_ctrlB (v : Word) : (s.setSysclk v).ctrlB = s.ctrlB := rfl
@[simp] theorem State.setSysclk_topReg (v : Word) : (s.setSysclk v).topReg = s.topReg := rfl
@[simp] theorem State.setSysclk_dutyReg (v : Word) : (s.setSysclk v).dutyReg = s.dutyReg := rfl
@[simp] theorem State.setSysclk_tcnt (v : Word) : (s.setSysclk v).tcnt = s.tcnt := rfl
@[simp] theorem State.setSysclk_out (v : Word) : (s.setSysclk v).out = s.out := rfl
@[simp] theorem State.setSysclk_params (v : Word) : (s.setSysclk v).params = s.params := rfl
@[simp] theorem State.setSysclk_pending (v : Word) : (s.setSysclk v).pending = s.pending := rfl
@[simp] theorem State.setSysclk_busReply (v : Word) : (s.setSysclk v).busReply = s.busReply := rfl

/-! ### setTop -/

@[simp] theorem State.setTop_freq (v : Half) : (s.setTop v).freq = s.freq := rfl
@[simp] theorem State.setTop_sysclk (v : Half) : (s.setTop v).sysclk = s.sysclk := rfl
@[simp] theorem State.setTop_result (v : Half) : (s.setTop v).result = s.result := rfl
@[simp] theorem State.setTop_cfgDone (v : Half) : (s.setTop v).cfgDone = s.cfgDone := rfl
@[simp] theorem State.setTop_pinDriven (v : Half) : (s.setTop v).pinDriven = s.pinDriven := rfl
@[simp] theorem State.setTop_range (v : Half) : (s.setTop v).range = s.range := rfl
@[simp] theorem State.setTop_fault (v : Half) : (s.setTop v).fault = s.fault := rfl
@[simp] theorem State.setTop_fcode (v : Half) : (s.setTop v).fcode = s.fcode := rfl
@[simp] theorem State.setTop_activeMode (v : Half) : (s.setTop v).activeMode = s.activeMode := rfl
@[simp] theorem State.setTop_ctrlA (v : Half) : (s.setTop v).ctrlA = s.ctrlA := rfl
@[simp] theorem State.setTop_ctrlB (v : Half) : (s.setTop v).ctrlB = s.ctrlB := rfl
@[simp] theorem State.setTop_topReg (v : Half) : (s.setTop v).topReg = v := rfl
@[simp] theorem State.setTop_dutyReg (v : Half) : (s.setTop v).dutyReg = s.dutyReg := rfl
@[simp] theorem State.setTop_tcnt (v : Half) : (s.setTop v).tcnt = s.tcnt := rfl
@[simp] theorem State.setTop_out (v : Half) : (s.setTop v).out = s.out := rfl
@[simp] theorem State.setTop_params (v : Half) : (s.setTop v).params = s.params := rfl
@[simp] theorem State.setTop_pending (v : Half) : (s.setTop v).pending = s.pending := rfl
@[simp] theorem State.setTop_busReply (v : Half) : (s.setTop v).busReply = s.busReply := rfl

/-! ### setDuty -/

@[simp] theorem State.setDuty_freq (v : Half) : (s.setDuty v).freq = s.freq := rfl
@[simp] theorem State.setDuty_sysclk (v : Half) : (s.setDuty v).sysclk = s.sysclk := rfl
@[simp] theorem State.setDuty_result (v : Half) : (s.setDuty v).result = s.result := rfl
@[simp] theorem State.setDuty_cfgDone (v : Half) : (s.setDuty v).cfgDone = s.cfgDone := rfl
@[simp] theorem State.setDuty_pinDriven (v : Half) : (s.setDuty v).pinDriven = s.pinDriven := rfl
@[simp] theorem State.setDuty_range (v : Half) : (s.setDuty v).range = s.range := rfl
@[simp] theorem State.setDuty_fault (v : Half) : (s.setDuty v).fault = s.fault := rfl
@[simp] theorem State.setDuty_fcode (v : Half) : (s.setDuty v).fcode = s.fcode := rfl
@[simp] theorem State.setDuty_activeMode (v : Half) : (s.setDuty v).activeMode = s.activeMode := rfl
@[simp] theorem State.setDuty_ctrlA (v : Half) : (s.setDuty v).ctrlA = s.ctrlA := rfl
@[simp] theorem State.setDuty_ctrlB (v : Half) : (s.setDuty v).ctrlB = s.ctrlB := rfl
@[simp] theorem State.setDuty_topReg (v : Half) : (s.setDuty v).topReg = s.topReg := rfl
@[simp] theorem State.setDuty_dutyReg (v : Half) : (s.setDuty v).dutyReg = v := rfl
@[simp] theorem State.setDuty_tcnt (v : Half) : (s.setDuty v).tcnt = s.tcnt := rfl
@[simp] theorem State.setDuty_out (v : Half) : (s.setDuty v).out = s.out := rfl
@[simp] theorem State.setDuty_params (v : Half) : (s.setDuty v).params = s.params := rfl
@[simp] theorem State.setDuty_pending (v : Half) : (s.setDuty v).pending = s.pending := rfl
@[simp] theorem State.setDuty_busReply (v : Half) : (s.setDuty v).busReply = s.busReply := rfl

/-! ### setLatch -/

@[simp] theorem State.setLatch_freq (c : FaultCode) : (s.setLatch c).freq = s.freq := rfl
@[simp] theorem State.setLatch_sysclk (c : FaultCode) : (s.setLatch c).sysclk = s.sysclk := rfl
@[simp] theorem State.setLatch_result (c : FaultCode) : (s.setLatch c).result = s.result := rfl
@[simp] theorem State.setLatch_cfgDone (c : FaultCode) : (s.setLatch c).cfgDone = s.cfgDone := rfl
@[simp] theorem State.setLatch_pinDriven (c : FaultCode) : (s.setLatch c).pinDriven = s.pinDriven := rfl
@[simp] theorem State.setLatch_range (c : FaultCode) : (s.setLatch c).range = s.range := rfl
@[simp] theorem State.setLatch_fault (c : FaultCode) : (s.setLatch c).fault = true := rfl
@[simp] theorem State.setLatch_fcode (c : FaultCode) : (s.setLatch c).fcode = c := rfl
@[simp] theorem State.setLatch_activeMode (c : FaultCode) : (s.setLatch c).activeMode = s.activeMode := rfl
@[simp] theorem State.setLatch_ctrlA (c : FaultCode) : (s.setLatch c).ctrlA = s.ctrlA := rfl
@[simp] theorem State.setLatch_ctrlB (c : FaultCode) : (s.setLatch c).ctrlB = s.ctrlB := rfl
@[simp] theorem State.setLatch_topReg (c : FaultCode) : (s.setLatch c).topReg = s.topReg := rfl
@[simp] theorem State.setLatch_dutyReg (c : FaultCode) : (s.setLatch c).dutyReg = s.dutyReg := rfl
@[simp] theorem State.setLatch_tcnt (c : FaultCode) : (s.setLatch c).tcnt = s.tcnt := rfl
@[simp] theorem State.setLatch_out (c : FaultCode) : (s.setLatch c).out = s.out := rfl
@[simp] theorem State.setLatch_params (c : FaultCode) : (s.setLatch c).params = s.params := rfl
@[simp] theorem State.setLatch_pending (c : FaultCode) : (s.setLatch c).pending = s.pending := rfl
@[simp] theorem State.setLatch_busReply (c : FaultCode) : (s.setLatch c).busReply = s.busReply := rfl

/-! ### setCount -/

@[simp] theorem State.setCount_freq (t : Half) (o : Bool) : (s.setCount t o).freq = s.freq := rfl
@[simp] theorem State.setCount_sysclk (t : Half) (o : Bool) : (s.setCount t o).sysclk = s.sysclk := rfl
@[simp] theorem State.setCount_result (t : Half) (o : Bool) : (s.setCount t o).result = s.result := rfl
@[simp] theorem State.setCount_cfgDone (t : Half) (o : Bool) : (s.setCount t o).cfgDone = s.cfgDone := rfl
@[simp] theorem State.setCount_pinDriven (t : Half) (o : Bool) : (s.setCount t o).pinDriven = s.pinDriven := rfl
@[simp] theorem State.setCount_range (t : Half) (o : Bool) : (s.setCount t o).range = s.range := rfl
@[simp] theorem State.setCount_fault (t : Half) (o : Bool) : (s.setCount t o).fault = s.fault := rfl
@[simp] theorem State.setCount_fcode (t : Half) (o : Bool) : (s.setCount t o).fcode = s.fcode := rfl
@[simp] theorem State.setCount_activeMode (t : Half) (o : Bool) : (s.setCount t o).activeMode = s.activeMode := rfl
@[simp] theorem State.setCount_ctrlA (t : Half) (o : Bool) : (s.setCount t o).ctrlA = s.ctrlA := rfl
@[simp] theorem State.setCount_ctrlB (t : Half) (o : Bool) : (s.setCount t o).ctrlB = s.ctrlB := rfl
@[simp] theorem State.setCount_topReg (t : Half) (o : Bool) : (s.setCount t o).topReg = s.topReg := rfl
@[simp] theorem State.setCount_dutyReg (t : Half) (o : Bool) : (s.setCount t o).dutyReg = s.dutyReg := rfl
@[simp] theorem State.setCount_tcnt (t : Half) (o : Bool) : (s.setCount t o).tcnt = t := rfl
@[simp] theorem State.setCount_out (t : Half) (o : Bool) : (s.setCount t o).out = o := rfl
@[simp] theorem State.setCount_params (t : Half) (o : Bool) : (s.setCount t o).params = s.params := rfl
@[simp] theorem State.setCount_pending (t : Half) (o : Bool) : (s.setCount t o).pending = s.pending := rfl
@[simp] theorem State.setCount_busReply (t : Half) (o : Bool) : (s.setCount t o).busReply = s.busReply := rfl

/-! ### answered -/

@[simp] theorem State.answered_freq (es : List Event) (r : BusReply) : (s.answered es r).freq = s.freq := rfl
@[simp] theorem State.answered_sysclk (es : List Event) (r : BusReply) : (s.answered es r).sysclk = s.sysclk := rfl
@[simp] theorem State.answered_result (es : List Event) (r : BusReply) : (s.answered es r).result = s.result := rfl
@[simp] theorem State.answered_cfgDone (es : List Event) (r : BusReply) : (s.answered es r).cfgDone = s.cfgDone := rfl
@[simp] theorem State.answered_pinDriven (es : List Event) (r : BusReply) : (s.answered es r).pinDriven = s.pinDriven := rfl
@[simp] theorem State.answered_range (es : List Event) (r : BusReply) : (s.answered es r).range = s.range := rfl
@[simp] theorem State.answered_fault (es : List Event) (r : BusReply) : (s.answered es r).fault = s.fault := rfl
@[simp] theorem State.answered_fcode (es : List Event) (r : BusReply) : (s.answered es r).fcode = s.fcode := rfl
@[simp] theorem State.answered_activeMode (es : List Event) (r : BusReply) : (s.answered es r).activeMode = s.activeMode := rfl
@[simp] theorem State.answered_ctrlA (es : List Event) (r : BusReply) : (s.answered es r).ctrlA = s.ctrlA := rfl
@[simp] theorem State.answered_ctrlB (es : List Event) (r : BusReply) : (s.answered es r).ctrlB = s.ctrlB := rfl
@[simp] theorem State.answered_topReg (es : List Event) (r : BusReply) : (s.answered es r).topReg = s.topReg := rfl
@[simp] theorem State.answered_dutyReg (es : List Event) (r : BusReply) : (s.answered es r).dutyReg = s.dutyReg := rfl
@[simp] theorem State.answered_tcnt (es : List Event) (r : BusReply) : (s.answered es r).tcnt = s.tcnt := rfl
@[simp] theorem State.answered_out (es : List Event) (r : BusReply) : (s.answered es r).out = s.out := rfl
@[simp] theorem State.answered_params (es : List Event) (r : BusReply) : (s.answered es r).params = s.params := rfl
@[simp] theorem State.answered_pending (es : List Event) (r : BusReply) : (s.answered es r).pending = es := rfl
@[simp] theorem State.answered_busReply (es : List Event) (r : BusReply) : (s.answered es r).busReply = r := rfl

/-! ### advanced -/

@[simp] theorem State.advanced_freq (es : List Event) : (s.advanced es).freq = s.freq := rfl
@[simp] theorem State.advanced_sysclk (es : List Event) : (s.advanced es).sysclk = s.sysclk := rfl
@[simp] theorem State.advanced_result (es : List Event) : (s.advanced es).result = s.result := rfl
@[simp] theorem State.advanced_cfgDone (es : List Event) : (s.advanced es).cfgDone = s.cfgDone := rfl
@[simp] theorem State.advanced_pinDriven (es : List Event) : (s.advanced es).pinDriven = s.pinDriven := rfl
@[simp] theorem State.advanced_range (es : List Event) : (s.advanced es).range = s.range := rfl
@[simp] theorem State.advanced_fault (es : List Event) : (s.advanced es).fault = s.fault := rfl
@[simp] theorem State.advanced_fcode (es : List Event) : (s.advanced es).fcode = s.fcode := rfl
@[simp] theorem State.advanced_activeMode (es : List Event) : (s.advanced es).activeMode = s.activeMode := rfl
@[simp] theorem State.advanced_ctrlA (es : List Event) : (s.advanced es).ctrlA = s.ctrlA := rfl
@[simp] theorem State.advanced_ctrlB (es : List Event) : (s.advanced es).ctrlB = s.ctrlB := rfl
@[simp] theorem State.advanced_topReg (es : List Event) : (s.advanced es).topReg = s.topReg := rfl
@[simp] theorem State.advanced_dutyReg (es : List Event) : (s.advanced es).dutyReg = s.dutyReg := rfl
@[simp] theorem State.advanced_tcnt (es : List Event) : (s.advanced es).tcnt = s.tcnt := rfl
@[simp] theorem State.advanced_out (es : List Event) : (s.advanced es).out = s.out := rfl
@[simp] theorem State.advanced_params (es : List Event) : (s.advanced es).params = s.params := rfl
@[simp] theorem State.advanced_pending (es : List Event) : (s.advanced es).pending = es := rfl
@[simp] theorem State.advanced_busReply (es : List Event) : (s.advanced es).busReply = s.busReply := rfl

/-! ### configured -/

@[simp] theorem State.configured_freq (m : PrescaleMode) (v : Half) : (s.configured m v).freq = s.freq := rfl
@[simp] theorem State.configured_sysclk (m : PrescaleMode) (v : Half) : (s.configured m v).sysclk = s.sysclk := rfl
@[simp] theorem State.configured_result (m : PrescaleMode) (v : Half) : (s.configured m v).result = s.result := rfl
@[simp] theorem State.configured_cfgDone (m : PrescaleMode) (v : Half) : (s.configured m v).cfgDone = true := rfl
@[simp] theorem State.configured_pinDriven (m : PrescaleMode) (v : Half) : (s.configured m v).pinDriven = true := rfl
@[simp] theorem State.configured_range (m : PrescaleMode) (v : Half) : (s.configured m v).range = s.range := rfl
@[simp] theorem State.configured_fault (m : PrescaleMode) (v : Half) : (s.configured m v).fault = s.fault := rfl
@[simp] theorem State.configured_fcode (m : PrescaleMode) (v : Half) : (s.configured m v).fcode = s.fcode := rfl
@[simp] theorem State.configured_activeMode (m : PrescaleMode) (v : Half) : (s.configured m v).activeMode = m := rfl
@[simp] theorem State.configured_ctrlA (m : PrescaleMode) (v : Half) : (s.configured m v).ctrlA = maskedUpdate s.ctrlA (fieldMask s.params .a) (fieldValue s.params .a m) := rfl
@[simp] theorem State.configured_ctrlB (m : PrescaleMode) (v : Half) : (s.configured m v).ctrlB = maskedUpdate s.ctrlB (fieldMask s.params .b) (fieldValue s.params .b m) := rfl
@[simp] theorem State.configured_topReg (m : PrescaleMode) (v : Half) : (s.configured m v).topReg = v := rfl
@[simp] theorem State.configured_dutyReg (m : PrescaleMode) (v : Half) : (s.configured m v).dutyReg = halved v := rfl
@[simp] theorem State.configured_tcnt (m : PrescaleMode) (v : Half) : (s.configured m v).tcnt = s.tcnt := rfl
@[simp] theorem State.configured_out (m : PrescaleMode) (v : Half) : (s.configured m v).out = s.out := rfl
@[simp] theorem State.configured_params (m : PrescaleMode) (v : Half) : (s.configured m v).params = s.params := rfl
@[simp] theorem State.configured_pending (m : PrescaleMode) (v : Half) : (s.configured m v).pending = s.pending := rfl
@[simp] theorem State.configured_busReply (m : PrescaleMode) (v : Half) : (s.configured m v).busReply = s.busReply := rfl

end Sys2Proof.Machine
end

