-- ==== Sys2Proof/Laws/Ops.lean ====
section
/-! SUPPORT. What each shared operation can do, said once; provers cite these instead of unfolding. -/

namespace Sys2Proof.Machine

/-- Taking a fault while the latch is set changes nothing (R95, R96). -/
theorem raise_of_fault {s : State} (c : FaultCode) (h : s.fault = true) : s.raise c = s := by
  simp [State.raise, h]

/-- The first fault enters the latch (R95). -/
theorem raise_of_good {s : State} (c : FaultCode) (h : s.fault = false) :
    s.raise c = s.setLatch c := by
  simp [State.raise, h]

/-- Taking a fault leaves every field but the latch alone. -/
theorem raise_cases (s : State) (c : FaultCode) :
    s.raise c = s ∨ (s.fault = false ∧ s.raise c = s.setLatch c) := by
  cases h : s.fault
  · exact .inr ⟨rfl, raise_of_good c h⟩
  · exact .inl (raise_of_fault c h)

@[simp] theorem raise_params (s : State) (c : FaultCode) : (s.raise c).params = s.params := by
  obtain h | ⟨_, h⟩ := raise_cases s c <;> simp [h]

@[simp] theorem raise_fault (s : State) (c : FaultCode) : (s.raise c).fault = true := by
  cases h : s.fault
  · simp [raise_of_good c h]
  · simp [raise_of_fault c h, h]

/-- A command is discarded, or runs its body; it always answers a next state. -/
theorem runCommand_eq (s : State) (body : State → State) :
    runCommand s body = .next (if s.fault then s else body s) := by
  unfold runCommand
  split <;> rfl

/-- What a CMD write that decoded leaves: the state after the instruction, as a plain function. -/
def afterCommand (i : Instr) (s : State) : State :=
  if s.fault then s
  else
    match i with
    | .cfg m v   => whenUnconfigured s fun s => s.configured m v
    | .setTop v  => whenConfigured s fun s => s.setTop v
    | .setDuty v => whenConfigured s fun s => s.setDuty (halved v)
    | .calcTop m    => s.translated m
    | .div m     => s.setResult (BitVec.ofNat 32 (divisor m))
    | .enc m     => s.setResult (csCode s.params m)

/-- Every command answers a next state. -/
theorem exec_eq_after (i : Instr) (s : State) : exec i s = .next (afterCommand i s) := by
  cases i <;>
    simp only [exec, execCfg, execSetTop, execSetDuty, execCalc, execDiv, execEnc, runCommand_eq,
      afterCommand]

/-- CALC ends in one of two ways (R85). -/
theorem translated_cases (s : State) (m : PrescaleMode) :
    (∃ t, topFor s.freq s.sysclk m = some t ∧
      s.translated m = (s.setResult (BitVec.ofNat 32 t)).setRange false) ∨
    (topFor s.freq s.sysclk m = none ∧ s.translated m = s.setRange true) := by
  unfold State.translated
  cases h : topFor s.freq s.sysclk m with
  | some t => exact .inl ⟨t, rfl, rfl⟩
  | none => exact .inr ⟨rfl, rfl⟩

/-- The TOP value a CALC accepts: all that an accepted input satisfies (R85, R91). -/
theorem topFor_eq_some {f clk : Word} {m : PrescaleMode} {t : Nat} :
    topFor f clk m = some t ↔
      f.toNat ≠ 0 ∧ timerClock clk m / f.toNat = t + 1 ∧ t ≤ 0xFFFF := by
  unfold topFor
  simp only []
  generalize timerClock clk m / f.toNat = q
  split
  · simp_all
  · split
    · simp_all
    · split
      · simp_all
        omega
      · simp only [Option.some.injEq]
        omega

/-- An accepted TOP value fits 16 bits. -/
theorem topFor_lt {f clk : Word} {m : PrescaleMode} {t : Nat} (h : topFor f clk m = some t) :
    t < 65536 := by
  have := (topFor_eq_some.mp h).2.2
  omega

/-- Everything a command can leave (R101): nothing, a fault in the latch, or its own effect. -/
theorem afterCommand_cases (i : Instr) (s : State) :
    (s.fault = true ∧ afterCommand i s = s) ∨
    (s.fault = false ∧ s.cfgDone = true ∧ (∃ m v, i = .cfg m v) ∧
      afterCommand i s = s.setLatch .reconfigure) ∨
    (s.fault = false ∧ s.cfgDone = false ∧ (∃ v, i = .setTop v ∨ i = .setDuty v) ∧
      afterCommand i s = s.setLatch .notConfigured) ∨
    (∃ m v, s.fault = false ∧ s.cfgDone = false ∧ i = .cfg m v ∧
      afterCommand i s = s.configured m v) ∨
    (∃ v, s.fault = false ∧ s.cfgDone = true ∧ i = .setTop v ∧ afterCommand i s = s.setTop v) ∨
    (∃ v, s.fault = false ∧ s.cfgDone = true ∧ i = .setDuty v ∧
      afterCommand i s = s.setDuty (halved v)) ∨
    (∃ m t, s.fault = false ∧ i = .calcTop m ∧ topFor s.freq s.sysclk m = some t ∧
      afterCommand i s = (s.setResult (BitVec.ofNat 32 t)).setRange false) ∨
    (∃ m, s.fault = false ∧ i = .calcTop m ∧ topFor s.freq s.sysclk m = none ∧
      afterCommand i s = s.setRange true) ∨
    (∃ m, s.fault = false ∧ i = .div m ∧
      afterCommand i s = s.setResult (BitVec.ofNat 32 (divisor m))) ∨
    (∃ m, s.fault = false ∧ i = .enc m ∧ afterCommand i s = s.setResult (csCode s.params m)) := by
  cases hf : s.fault
  · cases hc : s.cfgDone <;> cases i <;>
      simp [afterCommand, whenUnconfigured, whenConfigured, hf, hc, State.raise] <;>
      (obtain ⟨t, h, h'⟩ | ⟨h, h'⟩ := translated_cases s ‹_› <;> simp [h, h'])
  · simp [afterCommand, hf]

end Sys2Proof.Machine
end

