-- ==== Sys2Proof/Laws/PerInstr.lean ====
section
/-! SUPPORT. Statements made once per constructor of Instr. `EncodedFields`: the word of an
instruction has the opcode of its row of R61, RSV zero, a MODE at most 4, and zeros in every field
its form does not use (R56). -/

namespace Sys2Proof.Laws.EncodedFields

/-- The fields of the encoded word are legal (R65), and the opcode is not reserved (R62). -/
def Statement (i : Instr) : Prop := (rawOfWord (encode i)).Legal

theorem cfg (mode : PrescaleMode) (imm : Half) : Statement (.cfg mode imm) := by
  simp only [Statement, rawOfWord_encode]
  cases mode <;> simp [RawCommand.Legal, rawOfInstr, opcodeForm, PrescaleMode.index]

theorem setTop (imm : Half) : Statement (.setTop imm) := by
  simp only [Statement, rawOfWord_encode]
  simp [RawCommand.Legal, rawOfInstr, opcodeForm]

theorem setDuty (imm : Half) : Statement (.setDuty imm) := by
  simp only [Statement, rawOfWord_encode]
  simp [RawCommand.Legal, rawOfInstr, opcodeForm]

theorem calcTop (mode : PrescaleMode) : Statement (.calcTop mode) := by
  cases mode <;> (unfold Statement; decide)

theorem div (mode : PrescaleMode) : Statement (.div mode) := by
  cases mode <;> (unfold Statement; decide)

theorem enc (mode : PrescaleMode) : Statement (.enc mode) := by
  cases mode <;> (unfold Statement; decide)

end Sys2Proof.Laws.EncodedFields
end

