-- ==== Sys2Proof/Laws/Step.lean ====
section
/-! SUPPORT. One step as a plain function of the state, said once, and what it can do. -/

namespace Sys2Proof.Machine

/-- What a CMD write leaves, as a plain function (R40, R101). -/
def afterDeliver (s : State) (w : Word) : State :=
  if s.fault then s
  else
    match decode w with
    | .command i => afterCommand i s
    | .illegal _ => s.setLatch .illegalCmd

/-- Delivering a word always answers a next state. -/
theorem deliver_eq (s : State) (w : Word) : deliver s w = .next (afterDeliver s w) := by
  unfold deliver afterDeliver
  split
  · rfl
  · cases decode w with
    | command i => exact exec_eq_after i s
    | illegal why => simp [raise_of_good, *]

/-- What a write that reached a register leaves. -/
def afterWriteReg (s : State) (r : HostReg) (v : Word) : State :=
  match r with
  | .cmd    => afterDeliver s v
  | .freq   => s.setFreq v
  | .sysclk => s.setSysclk v
  | .status => s.raise .busError
  | .result => s.raise .busError

/-- What a host write leaves. -/
def afterWrite (s : State) (addr : Nat) (data : BusData) (rest : List Event) : State :=
  match offsetIn s.params addr with
  | none => s.answered rest .notReached
  | some off =>
    match writeTarget off data with
    | none        => (s.answered rest .written).raise .busError
    | some (r, v) => afterWriteReg (s.answered rest .written) r v

/-- A host write always answers a next state. -/
theorem busWrite_eq (s : State) (addr : Nat) (data : BusData) (rest : List Event) :
    busWrite s addr data rest = .next (afterWrite s addr data rest) := by
  unfold busWrite afterWrite
  cases offsetIn s.params addr with
  | none => rfl
  | some off =>
    cases h : writeTarget off data with
    | none => simp only [h]
    | some rv =>
      obtain ⟨r, v⟩ := rv
      simp only [h]
      cases r <;> first | rfl | exact deliver_eq _ _

/-- What one event leaves. -/
def afterEvent (s : State) (e : Event) (rest : List Event) : State :=
  match e with
  | .read size addr  => busRead s size addr rest
  | .write addr data => afterWrite s addr data rest
  | .tick            => s.ticked.advanced rest
  | .reset           => resetNow s rest

/-- What one step leaves, under a well-formed configuration. -/
def afterStep (s : State) : State :=
  match s.pending with
  | []        => s
  | e :: rest => afterEvent s e rest

/-- One step is the plain function under a well-formed configuration. -/
theorem step_eq {s : State} (h : s.params.WellFormed) : step s = .next (afterStep s) := by
  rw [step, if_pos h, nextEvent, afterStep]
  cases s.pending with
  | nil => rfl
  | cons e rest =>
    cases e <;> first | rfl | exact busWrite_eq s _ _ rest

/-- A step that answers a next state ran under a well-formed configuration. -/
theorem step_next {s t : State} (h : step s = .next t) :
    s.params.WellFormed ∧ t = afterStep s := by
  by_cases hw : s.params.WellFormed
  · rw [step_eq hw] at h
    exact ⟨hw, by injection h with h; exact h.symm⟩
  · rw [step, if_neg hw] at h
    cases h

@[simp] theorem afterCommand_params (i : Instr) (s : State) :
    (afterCommand i s).params = s.params := by
  obtain ⟨_, h⟩ | ⟨_, _, _, h⟩ | ⟨_, _, _, h⟩ | ⟨m, v, _, _, _, h⟩ | ⟨v, _, _, _, h⟩ | ⟨v, _, _, _, h⟩ |
    ⟨m, t, _, _, _, h⟩ | ⟨m, _, _, _, h⟩ | ⟨m, _, _, h⟩ | ⟨m, _, _, h⟩ := afterCommand_cases i s <;>
    simp [h]

@[simp] theorem afterDeliver_params (s : State) (w : Word) :
    (afterDeliver s w).params = s.params := by
  unfold afterDeliver
  split
  · rfl
  · split <;> simp

@[simp] theorem afterWrite_params (s : State) (addr : Nat) (data : BusData) (rest : List Event) :
    (afterWrite s addr data rest).params = s.params := by
  unfold afterWrite
  split
  · rfl
  · split
    · simp
    · rename_i r v _
      cases r <;> simp [afterWriteReg]

@[simp] theorem busRead_params (s : State) (size : BusSize) (addr : Nat) (rest : List Event) :
    (busRead s size addr rest).params = s.params := by
  unfold busRead
  split
  · rfl
  · split <;> simp

@[simp] theorem ticked_params (s : State) : s.ticked.params = s.params := by
  unfold State.ticked
  split <;> rfl

/-- No step changes the configuration. -/
@[simp] theorem afterStep_params (s : State) : (afterStep s).params = s.params := by
  unfold afterStep
  split
  · rfl
  · rename_i e rest _
    cases e <;> simp [afterEvent, resetNow, State.resetWith]

/-! ### Runs -/

@[simp] theorem runSteps_zero (s : State) : runSteps 0 s = .next s := rfl

/-- A run is one step and then the rest of the run. -/
theorem runSteps_succ {s : State} (n : Nat) (h : s.params.WellFormed) :
    runSteps (n + 1) s = runSteps n (afterStep s) := by
  rw [runSteps, step_eq h]

/-- A run of at least one step under an ill-formed configuration is refused at once (R8). -/
theorem runSteps_refused {s : State} (n : Nat) (h : ¬ s.params.WellFormed) :
    runSteps (n + 1) s = .refused .illFormedConfiguration := by
  rw [runSteps, step, if_neg h]

/-- The state after `n` steps, as a plain function. -/
def afterSteps : Nat → State → State
  | 0,     s => s
  | n + 1, s => afterSteps n (afterStep s)

/-- A run under a well-formed configuration never stops. -/
theorem runSteps_eq (n : Nat) (s : State) (h : s.params.WellFormed) :
    runSteps n s = .next (afterSteps n s) := by
  induction n generalizing s with
  | zero => rfl
  | succ n ih => rw [runSteps_succ n h, afterSteps, ih _ (by simpa using h)]

@[simp] theorem afterSteps_params (n : Nat) (s : State) : (afterSteps n s).params = s.params := by
  induction n generalizing s with
  | zero => rfl
  | succ n ih => rw [afterSteps, ih, afterStep_params]

/-- One more step at the end of a run. -/
theorem afterSteps_succ (n : Nat) (s : State) :
    afterSteps (n + 1) s = afterStep (afterSteps n s) := by
  induction n generalizing s with
  | zero => rfl
  | succ n ih => exact ih (afterStep s)

/-! ### Where an access lands -/

/-- An offset of the window reaches the block. -/
theorem offsetIn_base_add (p : Params) {off : Nat} (h : off < 32) :
    offsetIn p (p.blockBase + off) = some off := by
  unfold offsetIn
  rw [if_pos (by omega), Nat.add_sub_cancel_left]

/-- The base itself is offset 0. -/
theorem offsetIn_base (p : Params) : offsetIn p p.blockBase = some 0 :=
  offsetIn_base_add p (off := 0) (by omega)

/-- An address outside the window does not reach the block (R45). -/
theorem offsetIn_none {p : Params} {addr : Nat}
    (h : addr < p.blockBase ∨ p.blockBase + 32 ≤ addr) : offsetIn p addr = none := by
  unfold offsetIn
  rw [if_neg (by omega)]

/-- The register at an offset is the one whose offset it is (R34). -/
theorem regAt_eq_some {off : Nat} {r : HostReg} : regAt off = some r ↔ off = offsetOf r := by
  constructor
  · intro h
    unfold regAt at h
    split at h <;> simp_all <;> subst h <;> rfl
  · rintro rfl
    cases r <;> rfl

/-- A read reaches no register on a wrong width, a misaligned or a reserved offset. -/
theorem readTarget_eq_none {size : BusSize} {off : Nat}
    (h : size ≠ .word ∨ off % 4 ≠ 0 ∨ 0x14 ≤ off) : readTarget size off = none := by
  cases size with
  | word =>
    simp only [readTarget]
    split
    · cases hr : regAt off with
      | none => rfl
      | some r =>
        have := regAt_eq_some.mp hr
        cases r <;> simp_all [offsetOf]
    · rfl
  | byte => rfl
  | half => rfl
  | dword => rfl

/-- A word read of a register's own offset reaches it. -/
theorem readTarget_offsetOf (r : HostReg) : readTarget .word (offsetOf r) = some r := by
  cases r <;> rfl

/-- What a write target is: only a word write of CMD, FREQ or SYSCLK reaches a register. -/
theorem writeTarget_eq_some {off : Nat} {data : BusData} {r : HostReg} {v : Word} :
    writeTarget off data = some (r, v) ↔
      data = .word v ∧ off = offsetOf r ∧ writable r = true := by
  constructor
  · intro h
    cases data with
    | word u =>
      simp only [writeTarget] at h
      split at h
      · cases hr : regAt off with
        | none => simp [hr] at h
        | some r' =>
          simp only [hr] at h
          split at h
          · rename_i hw
            simp only [Option.some.injEq, Prod.mk.injEq] at h
            obtain ⟨rfl, rfl⟩ := h
            exact ⟨rfl, regAt_eq_some.mp hr, hw⟩
          · cases h
      · cases h
    | byte v => cases h
    | half v => cases h
    | dword v => cases h
  · rintro ⟨rfl, rfl, hw⟩
    cases r <;> simp_all [writeTarget, offsetOf, regAt, writable]

/-- A write reaches no register on a wrong width, a misaligned, reserved or read-only offset. -/
theorem writeTarget_eq_none {off : Nat} {data : BusData}
    (h : (∀ v, data ≠ .word v) ∨ off % 4 ≠ 0 ∨ off = 4 ∨ off = 0x10 ∨ 0x14 ≤ off) :
    writeTarget off data = none := by
  cases hw : writeTarget off data with
  | none => rfl
  | some rv =>
    obtain ⟨r, v⟩ := rv
    obtain ⟨rfl, rfl, h'⟩ := writeTarget_eq_some.mp hw
    cases r <;> simp_all [offsetOf, writable]

/-- An offset that an access reaches is the distance of its address from the base (R33, R45). -/
theorem offsetIn_eq_some {p : Params} {addr off : Nat} :
    offsetIn p addr = some off ↔ addr = p.blockBase + off ∧ off < 32 := by
  unfold offsetIn
  split
  · simp only [Option.some.injEq]
    omega
  · simp only [reduceCtorEq, false_iff]
    omega

/-- A read that reaches no register is a bus error. -/
theorem isBusError_of_readTarget {p : Params} {size : BusSize} {addr off : Nat}
    (ho : offsetIn p addr = some off) (h : readTarget size off = none) :
    (Event.read size addr).IsBusError p := by
  obtain ⟨rfl, hlt⟩ := offsetIn_eq_some.mp ho
  refine ⟨by omega, by omega, ?_⟩
  rw [Nat.add_sub_cancel_left]
  cases size with
  | word =>
    right
    by_contra hc
    have : off = 0 ∨ off = 4 ∨ off = 8 ∨ off = 12 ∨ off = 16 := by omega
    obtain rfl | rfl | rfl | rfl | rfl := this <;> cases h
  | byte => exact .inl nofun
  | half => exact .inl nofun
  | dword => exact .inl nofun

/-- A write that reaches no register is a bus error. -/
theorem isBusError_of_writeTarget {p : Params} {addr off : Nat} {data : BusData}
    (ho : offsetIn p addr = some off) (h : writeTarget off data = none) :
    (Event.write addr data).IsBusError p := by
  obtain ⟨rfl, hlt⟩ := offsetIn_eq_some.mp ho
  refine ⟨by omega, by omega, ?_⟩
  rw [Nat.add_sub_cancel_left]
  cases data with
  | word v =>
    right
    by_contra hc
    have : off = 0 ∨ off = 8 ∨ off = 12 := by omega
    obtain rfl | rfl | rfl := this <;> cases h
  | byte v => exact .inl nofun
  | half v => exact .inl nofun
  | dword v => exact .inl nofun

/-- What raising a bus error after an answer leaves: the first fault enters the latch, a later one
changes nothing but the answer (R95, R96). -/
theorem answered_raise_cases (s : State) (rest : List Event) (r : BusReply) (c : FaultCode) :
    (s.fault = true ∧ (s.answered rest r).raise c = { s with pending := rest, busReply := r }) ∨
    (s.fault = false ∧ (s.answered rest r).raise c =
      { s with pending := rest, busReply := r, fault := true, fcode := c }) := by
  cases hf : s.fault
  · exact .inr ⟨rfl, raise_of_good (s := s.answered rest r) _ hf⟩
  · refine .inl ⟨rfl, (raise_of_fault (s := s.answered rest r) _ hf).trans ?_⟩
    rw [← hf]
    rfl

/-- Everything one step can do, guards included: nothing, a reset, a tick before or after CFG, an
access that changes no register, a bus error, an operand write, an illegal word, or a command. -/
theorem afterStep_cases (s : State) :
    (s.pending = [] ∧ afterStep s = s) ∨
    (∃ rest, s.pending = .reset :: rest ∧
      afterStep s = { State.resetWith s.params with pending := rest }) ∨
    (∃ rest, s.pending = .tick :: rest ∧ s.cfgDone = false ∧
      afterStep s = { s with pending := rest }) ∨
    (∃ rest, s.pending = .tick :: rest ∧ s.cfgDone = true ∧
      afterStep s = { s with
        pending := rest
        tcnt := nextCount s.params.overshoot s.tcnt s.topReg
        out := nextOut s.params.coincide (nextCount s.params.overshoot s.tcnt s.topReg)
          s.dutyReg s.out }) ∨
    (∃ e rest r, s.pending = e :: rest ∧ e ≠ .reset ∧ e ≠ .tick ∧
      afterStep s = { s with pending := rest, busReply := r }) ∨
    (∃ e rest r, s.pending = e :: rest ∧ e.IsBusError s.params ∧ s.fault = false ∧
      afterStep s = { s with
        pending := rest, busReply := r, fault := true, fcode := .busError }) ∨
    (∃ rest v, s.pending = .write (s.params.blockBase + 0x08) (.word v) :: rest ∧
      afterStep s = { s with pending := rest, busReply := .written, freq := v }) ∨
    (∃ rest v, s.pending = .write (s.params.blockBase + 0x0C) (.word v) :: rest ∧
      afterStep s = { s with pending := rest, busReply := .written, sysclk := v }) ∨
    (∃ rest w, s.pending = .write s.params.blockBase (.word w) :: rest ∧ s.fault = false ∧
      (∃ why, decode w = .illegal why) ∧
      afterStep s = { s with
        pending := rest, busReply := .written, fault := true, fcode := .illegalCmd }) ∨
    (∃ rest w i, s.pending = .write s.params.blockBase (.word w) :: rest ∧ s.fault = false ∧
      decode w = .command i ∧ afterStep s = afterCommand i (s.answered rest .written)) := by
  unfold afterStep
  cases hp : s.pending with
  | nil => exact .inl ⟨rfl, rfl⟩
  | cons e rest =>
    right
    cases e with
    | reset => exact .inl ⟨rest, rfl, rfl⟩
    | tick =>
      right
      simp only [afterEvent, State.ticked]
      by_cases hc : s.cfgDone = true
      · exact .inr (.inl ⟨rest, rfl, hc, by rw [if_pos hc]; rfl⟩)
      · exact .inl ⟨rest, rfl, by simpa using hc, by rw [if_neg hc]; rfl⟩
    | read size addr =>
      right; right; right
      simp only [afterEvent, busRead]
      cases ho : offsetIn s.params addr with
      | none => exact .inl ⟨_, rest, .notReached, rfl, nofun, nofun, rfl⟩
      | some off =>
        cases ht : readTarget size off <;> simp only [ht]
        case some r => exact .inl ⟨_, rest, _, rfl, nofun, nofun, rfl⟩
        case none =>
          obtain ⟨-, h⟩ | ⟨hf, h⟩ := answered_raise_cases s rest (.data 0) .busError
          · exact .inl ⟨_, rest, _, rfl, nofun, nofun, h⟩
          · exact .inr (.inl ⟨_, rest, _, rfl, isBusError_of_readTarget ho ht, hf, h⟩)
    | write addr data =>
      right; right; right
      simp only [afterEvent, afterWrite]
      cases ho : offsetIn s.params addr with
      | none => exact .inl ⟨_, rest, .notReached, rfl, nofun, nofun, rfl⟩
      | some off =>
        cases ht : writeTarget off data <;> simp only [ht]
        case none =>
          obtain ⟨-, h⟩ | ⟨hf, h⟩ := answered_raise_cases s rest .written .busError
          · exact .inl ⟨_, rest, _, rfl, nofun, nofun, h⟩
          · exact .inr (.inl ⟨_, rest, _, rfl, isBusError_of_writeTarget ho ht, hf, h⟩)
        case some rv =>
          obtain ⟨r, v⟩ := rv
          obtain ⟨rfl, rfl, hw⟩ := writeTarget_eq_some.mp ht
          obtain ⟨rfl, -⟩ := offsetIn_eq_some.mp ho
          cases r with
          | status => cases hw
          | result => cases hw
          | freq => exact .inr (.inr (.inl ⟨rest, v, rfl, rfl⟩))
          | sysclk => exact .inr (.inr (.inr (.inl ⟨rest, v, rfl, rfl⟩)))
          | cmd =>
            simp only [afterWriteReg, afterDeliver]
            by_cases hf : (s.answered rest .written).fault = true
            · exact .inl ⟨_, rest, .written, rfl, nofun, nofun, by rw [if_pos hf]; rfl⟩
            · right; right; right; right
              rw [if_neg hf]
              have hf' : s.fault = false := by simpa using hf
              cases hd : decode v with
              | illegal why => exact .inl ⟨rest, v, rfl, hf', ⟨why, hd⟩, rfl⟩
              | command i => exact .inr ⟨rest, v, i, rfl, hf', hd, rfl⟩

end Sys2Proof.Machine
end

