-- ==== Sys2Proof/Tests/Slice0.lean ====
section
/-! SUPPORT. The model's own tests. Expected values come from spec/95_test_vectors.md (vector ids in the
docstrings), from words written out from spec/30_encoding.md R55 and R61, or from the constraints of
spec/00_scope.md R8. Then one witness for each obligation that has hypotheses, or for each clause. -/

/-- A state with one event to come. -/
def Sys2Proof.Machine.State.facing (s : Sys2Proof.Machine.State) (e : Sys2Proof.Machine.Event) :
    Sys2Proof.Machine.State := { s with pending := [e] }

namespace Sys2Proof.Tests

open Sys2Proof.Machine

/-! ### States the tests start from -/

/-- The next state of an outcome, if it is one. -/
def nextOf (o : Host.Outcome State Fault Refusal) : Option State :=
  match o with
  | .next s    => some s
  | .fault _   => none
  | .refused _ => none

/-- The refusal of an outcome, if it is one. -/
def refusalOf (o : Host.Outcome State Fault Refusal) : Option Refusal :=
  match o with
  | .next _    => none
  | .fault _   => none
  | .refused r => some r

/-- The state after vector CF2, under REF-AVR-T1. -/
def afterCf2 : State :=
  { State.reset with
    ctrlA := 0xC2, ctrlB := 0x1D, activeMode := .freq1024, topReg := 34, dutyReg := 17
    pinDriven := true, cfgDone := true }

/-- Reset with a latched fault. -/
def latched : State := { State.reset with fault := true, fcode := .notConfigured }

/-- Reset with both operands written. -/
def operands (f clk : Word) : State := { State.reset with freq := f, sysclk := clk }

/-- A CMD write under the reference profile, whose block base is 0. -/
def cmdAt0 (w : Word) : Event := .write 0 (.word w)

/-! ### Ill-formed configurations and illegal fields, each refused -/

/-- The reference profile is well-formed. -/
theorem test_reference_profile_well_formed : Params.refAvrT1.WellFormed := by decide

/-- R8: 1 ≤ CTRL_W. -/
theorem smoke_ctrl_width_zero : ¬ { Params.refAvrT1 with ctrlW := 0 }.WellFormed := by decide

/-- R8: CTRL_W ≤ 32. -/
theorem smoke_ctrl_width_large : ¬ { Params.refAvrT1 with ctrlW := 33 }.WellFormed := by decide

/-- R8: 1 ≤ CS_W. -/
theorem smoke_cs_width_zero : ¬ { Params.refAvrT1 with csW := 0 }.WellFormed := by decide

/-- R8: CS_W ≤ CTRL_W. -/
theorem smoke_cs_width_large : ¬ { Params.refAvrT1 with csW := 9 }.WellFormed := by decide

/-- R8: a code of CS_CODE is below 2 ^ CS_W. -/
theorem smoke_cs_code_wide :
    ¬ { Params.refAvrT1 with
        csCodes := { direct := 1, freq8 := 2, freq64 := 3, freq256 := 4, freq1024 := 8 } }.WellFormed := by
  decide

/-- R8: CS_CODE is injective. The spec's sample of the source (C1) is not. -/
theorem smoke_cs_code_repeated :
    ¬ { Params.refAvrT1 with
        csCodes := { direct := 0, freq8 := 1, freq64 := 2, freq256 := 1, freq1024 := 5 } }.WellFormed := by
  decide

/-- R8: CS_PIECE lies inside its register. -/
theorem smoke_cs_piece_outside :
    ¬ { Params.refAvrT1 with csPiece := { reg := .b, lsb := 6 } }.WellFormed := by decide

/-- R8: a piece of WGM_PIECES lies inside its register. -/
theorem smoke_wgm_piece_outside :
    ¬ { Params.refAvrT1 with wgmPieces := [{ reg := .a, lsb := 7, width := 2, value := 1 }] }.WellFormed := by
  decide

/-- R8: a piece's value is below 2 ^ width. -/
theorem smoke_com_value_wide :
    ¬ { Params.refAvrT1 with comPiece := { reg := .a, lsb := 6, width := 2, value := 4 } }.WellFormed := by
  decide

/-- R8: no two pieces overlap in one register. -/
theorem smoke_pieces_overlap :
    ¬ { Params.refAvrT1 with comPiece := { reg := .a, lsb := 1, width := 2, value := 3 } }.WellFormed := by
  decide

/-- R8: BLOCK_BASE is aligned to 32 bytes. -/
theorem smoke_base_misaligned : ¬ { Params.refAvrT1 with blockBase := 16 }.WellFormed := by decide

/-- R8: TIMER_INIT's control values are below 2 ^ CTRL_W. -/
theorem smoke_init_wide :
    ¬ { Params.refAvrT1 with
        timerInit := { ctrlA := 0x100, ctrlB := 0, topReg := 0, dutyReg := 0 } }.WellFormed := by
  decide

/-- R8: the machine refuses an ill-formed configuration. -/
theorem test_step_refuses_ill_formed :
    refusalOf (step { State.reset with params := { Params.refAvrT1 with ctrlW := 0 } }) =
      some .illFormedConfiguration := by decide

/-- R65 (a). -/
theorem smoke_reserved_opcode : ¬ RawCommand.Legal { opc := 7, mode := 0, rsv := 0, imm := 0 } := by decide

/-- R65 (b). -/
theorem smoke_rsv_set : ¬ RawCommand.Legal { opc := 1, mode := 0, rsv := 16, imm := 0 } := by decide

/-- R65 (c). -/
theorem smoke_form_i_mode : ¬ RawCommand.Legal { opc := 3, mode := 4, rsv := 0, imm := 0 } := by decide

/-- R65 (d). -/
theorem smoke_form_m_imm : ¬ RawCommand.Legal { opc := 5, mode := 0, rsv := 0, imm := 1 } := by decide

/-- R65 (e). -/
theorem smoke_mode_five : ¬ RawCommand.Legal { opc := 1, mode := 5, rsv := 0, imm := 0 } := by decide

/-! ### Decoding words written out field by field (OPC, MODE, RSV, IMM16) -/

/-- CFG Freq256, 0x8001. -/
theorem test_decode_cfg : decode 0b00000001_011_00000_1000000000000001#32 = .command (.cfg .freq256 0x8001) := by
  decide

/-- SETTOP 0x4002. -/
theorem test_decode_settop : decode 0b00000010_000_00000_0100000000000010#32 = .command (.setTop 0x4002) := by
  decide

/-- SETDUTY 125. -/
theorem test_decode_setduty : decode 0b00000011_000_00000_0000000001111101#32 = .command (.setDuty 125) := by
  decide

/-- CALC Freq1024. -/
theorem test_decode_calc : decode 0b00000100_100_00000_0000000000000000#32 = .command (.calcTop .freq1024) := by
  decide

/-- DIV Freq64. -/
theorem test_decode_div : decode 0b00000101_010_00000_0000000000000000#32 = .command (.div .freq64) := by
  decide

/-- ENC Freq8. -/
theorem test_decode_enc : decode 0b00000110_001_00000_0000000000000000#32 = .command (.enc .freq8) := by
  decide

/-- Reserved encodings refused: EN8, EN9, EN10, EN11, EN13. -/
theorem test_decode_illegal :
    decode 0x07000000 = .illegal .reservedOpcode ∧ decode 0xFF000000 = .illegal .reservedOpcode ∧
    decode 0x01A00000 = .illegal .modeOutOfRange ∧ decode 0x04E00000 = .illegal .modeOutOfRange ∧
    decode 0x041F0000 = .illegal .rsvNotZero := by decide

/-- R37, R54: lane 0 first, four bytes taken, three are too few. EN1's bytes. -/
theorem test_decode_bytes :
    decodeBytes [0x22, 0x00, 0x80, 0x01, 0xAA] = .command (.cfg .freq1024 34) [0xAA] ∧
    decodeBytes [0x22, 0x00, 0x80] = .truncated := by decide

/-- R67: hexadecimal and decimal immediates, and 65536 refused. -/
theorem test_assemble :
    assembleLine Params.refAvrT1 "CFG Freq1024, 0x22".toList = .ok (cmdAt0 0x01800022) ∧
    assembleLine Params.refAvrT1 "SETTOP 65536".toList = .refused .tooLarge := by decide

/-! ### Commands, one step each -/

/-- CF1, a step from reset with other bits already set. -/
theorem test_cfg_masked_update :
    (nextOf (step (State.facing { State.reset with ctrlA := 0x0C, ctrlB := 0xC0 } (cmdAt0 0x01800022)))).map
        (fun t => (t.ctrlA, t.ctrlB, t.topReg, t.dutyReg, statusWord t)) =
      some (0xCE, 0xDD, 34, 17, 0x00000403) := by decide

/-- CF7: a second CFG changes nothing but the latch. -/
theorem test_cfg_twice :
    (nextOf (step (afterCf2.facing (cmdAt0 0x01400064)))).map
        (fun t => (t.ctrlB, t.topReg, t.dutyReg, statusWord t)) =
      some (0x1D, 34, 17, 0x0000042B) := by decide

/-- ST2. -/
theorem test_settop_keeps_duty :
    (nextOf (step (afterCf2.facing (cmdAt0 0x02000064)))).map
        (fun t => (t.topReg, t.dutyReg, statusWord t)) = some (100, 17, 0x00000403) := by decide

/-- ST7. -/
theorem test_settop_unconfigured :
    (nextOf (step (State.reset.facing (cmdAt0 0x0200000A)))).map
        (fun t => (t.topReg, statusWord t)) = some (0, 0x00000038) := by decide

/-- SD4. -/
theorem test_setduty_half :
    (nextOf (step (afterCf2.facing (cmdAt0 0x0300FFFF)))).map
        (fun t => (t.topReg, t.dutyReg)) = some (34, 32767) := by decide

/-- SD6. -/
theorem test_setduty_unconfigured :
    (nextOf (step (State.reset.facing (cmdAt0 0x03000008)))).map
        (fun t => (t.dutyReg, statusWord t)) = some (0, 0x00000038) := by decide

/-- CA37: the command's own mode, not ACTIVE_MODE. -/
theorem test_calc_own_mode :
    (nextOf (step ({ afterCf2 with freq := 440, sysclk := 16000000 }.facing (cmdAt0 0x04400000)))).map
        (fun t => (t.result, statusWord t)) = some (567, 0x00000403) := by decide

/-- CA16 with RESULT holding 7 before: rejected, RESULT kept. -/
theorem test_calc_too_low :
    (nextOf (exec (.calcTop .direct) { operands 1 65537 with result := 7 })).map
        (fun t => (t.result, statusWord t)) = some (7, 0x00000004) := by decide

/-- DV7: RANGE stays. -/
theorem test_div_keeps_range :
    (nextOf (step ({ State.reset with range := true }.facing (cmdAt0 0x05200000)))).map
        (fun t => (t.result, statusWord t)) = some (8, 0x00000004) := by decide

/-- DV5. -/
theorem test_div_largest :
    (nextOf (exec (.div .freq1024) State.reset)).map (·.result) = some 0x400 := by decide

/-- EC4. -/
theorem test_enc_code :
    (nextOf (step (State.reset.facing (cmdAt0 0x06600000)))).map (·.result) = some 4 := by decide

/-- ENC is discarded while FAULT = 1 (R73). -/
theorem test_enc_discarded :
    (nextOf (exec (.enc .direct) latched)).map (·.result) = some 0 := by decide

/-! ### Bus, timer and reset, one step each -/

/-- FB2. -/
theorem test_status_write_is_bus_error :
    (nextOf (step (State.reset.facing (.write 4 (.word 1))))).map statusWord = some 0x00000048 := by decide

/-- FB6. -/
theorem test_misaligned_read :
    (nextOf (step (State.reset.facing (.read .word 2)))).map (fun t => (t.busReply, statusWord t)) =
      some (.data 0, 0x00000048) := by decide

/-- FB8. -/
theorem test_half_write :
    (nextOf (step (State.reset.facing (.write 0x0C (.half 5))))).map (fun t => (t.sysclk, statusWord t)) =
      some (0, 0x00000048) := by decide

/-- FB10: a bus error while faulted leaves FCODE. -/
theorem test_bus_error_while_faulted :
    (nextOf (step (latched.facing (.write 4 (.word 0))))).map statusWord = some 0x00000038 := by decide

/-- FB14. -/
theorem test_outside_window :
    (nextOf (step (State.reset.facing (.read .word 0x20)))).map (fun t => (t.busReply, statusWord t)) =
      some (.notReached, 0) := by decide

/-- FB17: decoding comes before sequencing. -/
theorem test_decode_before_sequencing :
    (nextOf (step (afterCf2.facing (cmdAt0 0x01A00000)))).map statusWord = some 0x0000041B := by decide

/-- TM1, tick 2: compare match. -/
theorem test_tick_match :
    (nextOf (step ({ afterCf2 with topReg := 4, dutyReg := 2, tcnt := 1 }.facing .tick))).map
        (fun t => (t.tcnt, t.out)) = some (2, true) := by decide

/-- TM5 and TM6: bottom and match together. -/
theorem test_tick_coincide :
    (nextOf (step ({ afterCf2 with topReg := 0, dutyReg := 0 }.facing .tick))).map
        (fun t => (t.tcnt, t.out)) = some (0, true) ∧
    (nextOf (step ({ afterCf2 with
        topReg := 0, dutyReg := 0, params := { Params.refAvrT1 with coincide := .clearWins } }.facing .tick))).map
        (fun t => (t.tcnt, t.out)) = some (0, false) := by decide

/-- TM9 and TM10: above TOP_REG. -/
theorem test_tick_overshoot :
    (nextOf (step ({ afterCf2 with topReg := 5, tcnt := 8 }.facing .tick))).map (·.tcnt) = some 9 ∧
    (nextOf (step ({ afterCf2 with
        topReg := 5, tcnt := 8, params := { Params.refAvrT1 with overshoot := .resetNow } }.facing .tick))).map
        (·.tcnt) = some 0 := by decide

/-- RS2 and R118: reset clears the latch and loads TIMER_INIT. -/
theorem test_reset_event :
    (nextOf (step ({ latched with
        params := { Params.refAvrT1 with
          timerInit := { ctrlA := 0x11, ctrlB := 0x22, topReg := 3, dutyReg := 4 } } }.facing .reset))).map
        (fun t => (statusWord t, t.ctrlA, t.ctrlB, t.topReg, t.dutyReg)) =
      some (0, 0x11, 0x22, 3, 4) := by decide

/-! ### Witnesses: for every obligation with hypotheses, states and operands that meet them -/

theorem reset_inv : State.reset.Inv where
  wellFormed := by decide
  width := by intro r; cases r <;> decide
  latch := by decide
  pin := by decide
  unconfigured := by
    intro _
    refine ⟨by decide, ?_, by decide, by decide, by decide, by decide⟩
    intro r; cases r <;> decide
  configured := fun h => absurd h (by decide)
  duty := fun h => absurd h (by decide)
  result := by decide

theorem afterCf2_inv : afterCf2.Inv where
  wellFormed := by decide
  width := by intro r; cases r <;> decide
  latch := by decide
  pin := by decide
  unconfigured := fun h => absurd h (by decide)
  configured := by intro _ r; cases r <;> decide
  duty := by decide
  result := by decide

/-- A configuration whose window does not start at 0, so that addresses lie below it too. -/
def based : State := { State.reset with params := { Params.refAvrT1 with blockBase := 32 } }

/-- The same with a latched fault. -/
def basedLatched : State := { based with fault := true, fcode := .busError }

theorem witness_TableRowsSelectCommands :
    decode 0x0180FFFF = .command (.cfg .freq1024 0xFFFF) ∧ decode 0x02000000 = .command (.setTop 0) ∧
    decode 0x0300FFFF = .command (.setDuty 0xFFFF) ∧ decode 0x04800000 = .command (.calcTop .freq1024) ∧
    decode 0x05800000 = .command (.div .freq1024) ∧ decode 0x06000000 = .command (.enc .direct) := by decide

theorem witness_IllegalWordsRaiseIllegalCmd :
    decode 0x07000000 = .illegal .reservedOpcode ∧
    based.params.WellFormed ∧ based.fault = false ∧
    (based.facing (.write 32 (.word 0x07000000))).pending =
      .write based.params.blockBase (.word 0x07000000) :: [] := by decide

theorem witness_EncodeOfDecodeIsTheWord : decode 0x0160FFFF = .command (.cfg .freq256 0xFFFF) := by decide

theorem witness_ByteLanesAreLittleEndian :
    (0 < 4 ∧ 0 < 8) ∧ (3 < 4 ∧ 7 < 8) ∧ (laneOfWord 0x80000001 3).getLsbD 7 = true ∧
    (laneOfWord 0x80000001 0).getLsbD 0 = true := by decide

theorem witness_AssemblerReadsItsOwnText :
    numberOfText "65536".toList = some 65536 ∧ numberOfText "0x10000".toList = some 65536 ∧
    numberOfText "65535".toList = some 65535 ∧ numberOfText "0".toList = some 0 ∧
    ("freq8".toList ≠ "Direct".toList ∧ "freq8".toList ≠ "Freq8".toList ∧
      "freq8".toList ≠ "Freq64".toList ∧ "freq8".toList ≠ "Freq256".toList ∧
      "freq8".toList ≠ "Freq1024".toList) := by decide

theorem witness_StepGoesOnExactlyWhenWellFormed :
    State.reset.params.WellFormed ∧ ¬ { Params.refAvrT1 with csW := 0 }.WellFormed := by decide

theorem witness_CmdWriteRunsTheDecodedCommand :
    (based.facing (.write 32 (.word 0x05000000))).pending =
      .write based.params.blockBase (.word 0x05000000) :: [] ∧
    based.params.WellFormed ∧ based.fault = false ∧ basedLatched.params.WellFormed ∧
    basedLatched.fault = true ∧ decode 0x05000000 = .command (.div .direct) ∧
    decode 0x05000001 = .illegal .immNotZero := by decide

theorem witness_PlacedWordIsRunNext : afterCf2.params.WellFormed := by decide

theorem witness_ReadsReturnRegistersAndChangeNothing :
    based.params.WellFormed ∧
    (based.facing (.read .word 48)).pending = .read .word (based.params.blockBase + 0x10) :: [] ∧
    (based.facing (.read .word 32)).pending = .read .word (based.params.blockBase + 0x00) :: [] := by decide

theorem witness_OperandWritesReplaceTheRegister :
    based.params.WellFormed ∧
    (based.facing (.write 40 (.word 440))).pending =
      .write (based.params.blockBase + 0x08) (.word 440) :: [] ∧
    (basedLatched.facing (.write 44 (.word 5))).pending =
      .write (basedLatched.params.blockBase + 0x0C) (.word 5) :: [] := by decide

/-- The first and last addresses of each clause: inside at 0x14 and 0x1F, outside at 31 and 64. -/
theorem witness_BusErrorsLatchAndDoNothingElse :
    based.params.WellFormed ∧ based.fault = false ∧ basedLatched.fault = true ∧
    (32 ≤ 52 ∧ 52 < 32 + 32 ∧ 0x14 ≤ 52 - based.params.blockBase) ∧
    (32 ≤ 63 ∧ 63 < 32 + 32 ∧ (63 - based.params.blockBase) % 4 ≠ 0) ∧
    (BusSize.dword ≠ .word) ∧ (36 - based.params.blockBase = 0x04) ∧ (48 - based.params.blockBase = 0x10) ∧
    31 < based.params.blockBase ∧ based.params.blockBase + 32 ≤ 64 ∧
    (basedLatched.facing (.write 48 (.word 1))).pending = .write 48 (.word 1) :: [] := by decide

theorem witness_StatusLayout :
    State.reset.Inv ∧ State.reset.fault = false ∧ State.reset.cfgDone = false ∧
    (based.facing (.read .word 36)).pending = .read .word (based.params.blockBase + 0x04) :: [] ∧
    (based.facing (.write 36 (.word 0))).pending =
      .write (based.params.blockBase + 0x04) (.word 0) :: [] :=
  ⟨reset_inv, by decide⟩

theorem witness_ChecksAreMadeInOrder :
    afterCf2.params.WellFormed ∧ afterCf2.fault = false ∧ latched.fault = true ∧
    (afterCf2.facing (cmdAt0 0x01400064)).pending =
      .write afterCf2.params.blockBase (.word 0x01400064) :: [] ∧
    decode 0x01A00000 = .illegal .modeOutOfRange ∧
    (decode 0x01400064 = .command (.cfg .freq64 100) ∧ afterCf2.cfgDone = true) ∧
    (decode 0x0200000A = .command (.setTop 10) ∧ State.reset.cfgDone = false) ∧
    (decode 0x03000008 = .command (.setDuty 8) ∧ afterCf2.cfgDone = true) ∧
    (∀ v, BusData.half 0 ≠ .word v) :=
  ⟨by decide, by decide, by decide, by decide, by decide, by decide, by decide, by decide,
    fun _ h => nomatch h⟩

theorem witness_FaultedBlockStillReadsWritesAndTicks :
    basedLatched.params.WellFormed ∧ basedLatched.fault = true ∧
    (basedLatched.facing (.write 32 (.word 0))).pending =
      .write basedLatched.params.blockBase (.word 0) :: [] ∧
    (basedLatched.facing (.read .word 48)).pending =
      .read .word (basedLatched.params.blockBase + offsetOf .result) :: [] ∧
    (basedLatched.facing .tick).pending = .tick :: [] ∧
    ((nextOf (step (basedLatched.facing .reset))).map (·.fault)) = some false := by decide

/-- An illegal word of each opcode, for the clauses of the six command statements on illegal words. -/
theorem witness_illegal_words_of_each_opcode :
    ((0x01A00000 : Word).extractLsb' 24 8 = 1 ∧ 4 < ((0x01A00000 : Word).extractLsb' 21 3).toNat) ∧
    ((0x02200005 : Word).extractLsb' 24 8 = 2 ∧ (0x02200005 : Word).extractLsb' 21 3 ≠ 0) ∧
    ((0x03010000 : Word).extractLsb' 24 8 = 3 ∧ (0x03010000 : Word).extractLsb' 16 5 ≠ 0) ∧
    ((0x04800001 : Word).extractLsb' 24 8 = 4 ∧ (0x04800001 : Word).extractLsb' 0 16 ≠ 0) ∧
    ((0x05E00000 : Word).extractLsb' 24 8 = 5 ∧ 4 < ((0x05E00000 : Word).extractLsb' 21 3).toNat) ∧
    ((0x06100000 : Word).extractLsb' 24 8 = 6 ∧ (0x06100000 : Word).extractLsb' 16 5 ≠ 0) := by decide

/-- The clauses discarded, RECONFIGURE, accepted, and R75's example. -/
theorem witness_CfgConfiguresOnce :
    latched.fault = true ∧ (afterCf2.fault = false ∧ afterCf2.cfgDone = true) ∧
    (State.reset.fault = false ∧ State.reset.cfgDone = false) ∧
    ({ State.reset with ctrlA := 0x0C, ctrlB := 0xC0 }.params = Params.refAvrT1 ∧
      { State.reset with ctrlA := 0x0C, ctrlB := 0xC0 }.cfgDone = false) := by decide

theorem witness_SetTopWritesTopOnly :
    latched.fault = true ∧ (State.reset.fault = false ∧ State.reset.cfgDone = false) ∧
    (afterCf2.fault = false ∧ afterCf2.cfgDone = true) ∧
    ∃ t, exec (.cfg .freq1024 0) State.reset = .next t :=
  ⟨by decide, by decide, by decide, _, rfl⟩

theorem witness_SetDutyWritesHalfOnly :
    latched.fault = true ∧ (State.reset.fault = false ∧ State.reset.cfgDone = false) ∧
    (afterCf2.fault = false ∧ afterCf2.cfgDone = true) := by decide

/-- The operands at each edge: FREQ 0, q = 0, q = 1, q = 65536 and q = 65537 (CA12, CA7, CA6, CA15, CA16). -/
theorem witness_CalcComputesTop :
    latched.fault = true ∧ (operands 0 16000000).fault = false ∧ (operands 0 16000000).freq.toNat = 0 ∧
    (0 = (16000000 : Word).toNat / divisor .freq1024 / (15626 : Word).toNat) ∧
    (1 = (16000000 : Word).toNat / divisor .freq1024 / (15625 : Word).toNat) ∧
    (65536 = (65536 : Word).toNat / divisor .direct / (1 : Word).toNat ∧ 65536 - 1 ≤ 0xFFFF) ∧
    (65537 = (65537 : Word).toNat / divisor .direct / (1 : Word).toNat ∧ 0xFFFF < 65537 - 1) := by decide

theorem witness_DivReadsTheDivisor : latched.fault = true ∧ afterCf2.fault = false := by decide

theorem witness_EncReadsTheClockSelectCode :
    latched.fault = true ∧ afterCf2.Inv ∧ afterCf2.cfgDone = true ∧ afterCf2.fault = false ∧
    afterCf2.params.WellFormed ∧ afterCf2.params = Params.refAvrT1 :=
  ⟨by decide, afterCf2_inv, by decide⟩

theorem witness_CommandFrames :
    (∃ t, exec (.cfg .freq8 35) State.reset = .next t ∧ t.fault = State.reset.fault) ∧
    (∃ t, exec (.cfg .freq8 35) afterCf2 = .next t ∧ t.fault ≠ afterCf2.fault) ∧
    (∃ t, exec (.setTop 1) State.reset = .next t ∧ t.fault ≠ State.reset.fault) ∧
    (∃ t, exec (.setDuty 1) afterCf2 = .next t ∧ t.fault = afterCf2.fault) ∧
    (∃ t, exec (.calcTop .direct) State.reset = .next t ∧ t.range = true) ∧
    (∃ t, exec (.div .direct) State.reset = .next t) ∧ ∃ t, exec (.enc .direct) State.reset = .next t :=
  ⟨⟨_, rfl, by decide⟩, ⟨_, rfl, by decide⟩, ⟨_, rfl, by decide⟩, ⟨_, rfl, by decide⟩,
    ⟨_, rfl, by decide⟩, ⟨_, rfl⟩, ⟨_, rfl⟩⟩

theorem witness_RepeatedCommandsAreIdempotent :
    (∀ m v, Instr.setTop 99 ≠ .cfg m v) ∧ (∃ t, exec (.setTop 99) afterCf2 = .next t) ∧
    (State.reset.fault = false ∧ State.reset.cfgDone = false) ∧
    ∃ t, exec (.cfg .direct 0) State.reset = .next t :=
  ⟨(fun _ _ h => nomatch h), ⟨_, rfl⟩, by decide, _, rfl⟩

/-- Bit 7 of CTRL_A and bit 0 of CTRL_B, inside pieces, and bit 31, outside. -/
theorem witness_MasksAndValuesAreBuiltFromPieces :
    Params.refAvrT1.WellFormed ∧ 7 < 32 ∧ 31 < 32 ∧
    (Params.refAvrT1.comPiece.lsb ≤ 7 ∧ 7 < Params.refAvrT1.comPiece.lsb + Params.refAvrT1.comPiece.width) ∧
    (Params.refAvrT1.csPiece.lsb ≤ 0 ∧ 0 < Params.refAvrT1.csPiece.lsb + Params.refAvrT1.csW) ∧
    (fieldMask Params.refAvrT1 .a).getLsbD 31 = false := by decide

theorem witness_CfgPreservesUnrelatedBits :
    State.reset.params.WellFormed ∧ State.reset.fault = false ∧ State.reset.cfgDone = false ∧
    (fieldMask State.reset.params .a).getLsbD 2 = false ∧
    (fieldMask State.reset.params .a).getLsbD 1 = true := by decide

theorem witness_DivisorTableLaws :
    PrescaleMode.freq256.index.toNat < PrescaleMode.freq1024.index.toNat ∧ afterCf2.fault = false := by decide

theorem witness_EncTellsModesApart :
    State.reset.params.WellFormed ∧ State.reset.fault = false ∧
    ∃ t u, exec (.enc .freq64) State.reset = .next t ∧ exec (.enc .freq64) State.reset = .next u ∧
      t.result = u.result :=
  ⟨by decide, by decide, _, _, rfl, rfl, rfl⟩

/-- Rejected at FREQ 0, at tc + 1 and at q = 65537; accepted at FREQ = tc and at q = 65536. -/
theorem witness_CalcRejectsExactlyTheOutOfRange :
    (operands 0 7).fault = false ∧ 15625 = (16000000 : Word).toNat / divisor .freq1024 ∧
    15625 < (15626 : Word).toNat ∧ 65535 < 65537 / (1 : Word).toNat - 1 ∧
    ¬ ((15625 : Word).toNat = 0 ∨ 15625 < (15625 : Word).toNat ∨ 65535 < 15625 / (15625 : Word).toNat - 1) ∧
    ¬ ((1 : Word).toNat = 0 ∨ 65536 < (1 : Word).toNat ∨ 65535 < 65536 / (1 : Word).toNat - 1) := by decide

theorem witness_CalcAcceptedExactlyInRange :
    (operands 15625 16000000).fault = false ∧
    15625 = (operands 15625 16000000).sysclk.toNat / divisor .freq1024 ∧
    (operands 15625 16000000).freq.toNat = 15625 ∧ 1 ≤ (operands 15625 16000000).freq.toNat := by decide

theorem witness_CalcIsOneDivision :
    (operands 440 16000000).fault = false ∧
    ∃ t, exec (.calcTop .freq1024) (operands 440 16000000) = .next t ∧ t.range = false :=
  ⟨by decide, _, rfl, by decide⟩

/-- 440 and 523 Hz both accepted; 15626 and 15627 too high; 1 and 2 too low. -/
theorem witness_CalcIsMonotone :
    (operands 440 16000000).sysclk = (operands 523 16000000).sysclk ∧
    1 ≤ (operands 440 16000000).freq.toNat ∧
    (operands 440 16000000).freq.toNat ≤ (operands 523 16000000).freq.toNat ∧
    (nextOf (exec (.calcTop .freq1024) (operands 440 16000000))).map (·.range) = some false ∧
    (nextOf (exec (.calcTop .freq1024) (operands 523 16000000))).map (·.range) = some false ∧
    (16000000 : Word).toNat / divisor .freq1024 / (15626 : Word).toNat = 0 ∧
    65535 < (16000000 : Word).toNat / divisor .direct / (2 : Word).toNat - 1 := by decide

theorem witness_ProducedFrequencyIsClose :
    (∃ t, exec (.calcTop .freq1024) (operands 440 16000000) = .next t ∧ t.range = false) ∧
    (operands 440 16000000).fault = false ∧
    16000000 % divisor .freq1024 = 0 :=
  ⟨⟨_, rfl, by decide⟩, by decide, by decide⟩

/-- Count at TOP, below TOP, above TOP with each OVERSHOOT. -/
theorem witness_TickCountsAndCompares :
    (State.reset.facing .tick).pending = .tick :: [] ∧ State.reset.cfgDone = false ∧
    afterCf2.cfgDone = true ∧ { afterCf2 with tcnt := 34 }.tcnt = afterCf2.topReg ∧
    afterCf2.tcnt.toNat < afterCf2.topReg.toNat ∧
    (afterCf2.topReg.toNat < (35 : Half).toNat ∧ afterCf2.params.overshoot = .countToMax) ∧
    { Params.refAvrT1 with overshoot := .resetNow }.WellFormed := by decide

/-- At TOP, and above it up to the wrap. -/
theorem witness_CounterCyclesThroughTopPlusOneStates :
    afterCf2.params.WellFormed ∧ afterCf2.cfgDone = true ∧
    { afterCf2 with pending := [.tick, .tick] }.pending = List.replicate 2 Event.tick ++ [] ∧
    (34 : Half).toNat ≤ afterCf2.topReg.toNat ∧ afterCf2.topReg.toNat < (65534 : Half).toNat ∧
    afterCf2.params.overshoot = .countToMax ∧ (65534 : Half).toNat + 2 ≤ 65536 ∧
    { Params.refAvrT1 with overshoot := .resetNow }.overshoot = .resetNow := by decide

/-- DUTY 1, DUTY = TOP, DUTY above TOP and DUTY 0, at counts 0 and TOP. -/
theorem witness_OutputIsHighFromDutyToTop :
    afterCf2.params.WellFormed ∧ afterCf2.cfgDone = true ∧
    { afterCf2 with pending := [.tick] }.pending = List.replicate 1 Event.tick ++ [] ∧
    afterCf2.tcnt.toNat ≤ afterCf2.topReg.toNat ∧
    (1 ≤ afterCf2.dutyReg.toNat ∧ afterCf2.dutyReg.toNat ≤ afterCf2.topReg.toNat) ∧
    (afterCf2.out = true ↔ afterCf2.dutyReg.toNat ≤ afterCf2.tcnt.toNat) ∧
    (afterCf2.topReg.toNat + 1 ≤ (34 : Half).toNat + 1 ∧ afterCf2.topReg.toNat < (35 : Half).toNat ∧
      (0 : Half).toNat = 0) := by decide

theorem witness_HighTicksPerPeriod :
    afterCf2.params.WellFormed ∧ afterCf2.cfgDone = true ∧ afterCf2.tcnt = 0 ∧ afterCf2.out = false ∧
    1 ≤ afterCf2.dutyReg.toNat ∧ afterCf2.dutyReg.toNat ≤ afterCf2.topReg.toNat ∧
    { afterCf2 with pending := List.replicate 35 .tick }.pending =
      List.replicate (afterCf2.topReg.toNat + 1) Event.tick ++ [] := by decide

theorem witness_PinIsDrivenOnlyWhileTheCounterRuns :
    afterCf2.pinDriven = true ∧ State.reset.pinDriven = false ∧ afterCf2.Inv ∧
    pinLevel afterCf2 = some false :=
  ⟨by decide, by decide, afterCf2_inv, by decide⟩

theorem witness_ResetSetsEveryRegister :
    latched.params.WellFormed ∧ (latched.facing .reset).pending = .reset :: [] := by decide

theorem witness_InvariantHoldsAtReset : Params.refAvrT1.WellFormed ∧ based.params.WellFormed := by decide

theorem witness_InvariantIsKeptByEveryStep : afterCf2.Inv ∧ ∃ t, step afterCf2 = .next t :=
  ⟨afterCf2_inv, _, rfl⟩

theorem witness_LatchAndConfigurationLastUntilReset :
    (∀ e ∈ ({ afterCf2 with pending := [.tick, cmdAt0 0x02000001] } : State).pending,
      e.isNotReset = true) ∧
    (nextOf (runSteps 2 { afterCf2 with pending := [.tick, cmdAt0 0x02000001] })).map (·.topReg) = some 1 ∧
    latched.fault = true ∧ afterCf2.pinDriven = true ∧ afterCf2.cfgDone = true := by decide

/-- Each register does change, by a writer that the statement names. -/
theorem witness_RegistersChangeOnlyByTheirWriters :
    (nextOf (step (State.reset.facing (.write 8 (.word 440))))).map (·.freq) = some 440 ∧
    (nextOf (step (State.reset.facing (.write 12 (.word 5))))).map (·.sysclk) = some 5 ∧
    (nextOf (step (State.reset.facing (cmdAt0 0x05000000)))).map (·.result) = some 1 ∧
    (nextOf (step (State.reset.facing (cmdAt0 0x04000000)))).map (·.range) = some true ∧
    (nextOf (step (State.reset.facing (cmdAt0 0x01800022)))).map
      (fun t => (t.cfgDone, t.topReg, t.dutyReg)) = some (true, 34, 17) ∧
    (nextOf (step (afterCf2.facing .tick))).map (·.tcnt) = some 1 ∧
    (nextOf (step (State.reset.facing (.read .word 0x14)))).map (·.fcode) = some .busError ∧
    (nextOf (step (State.reset.facing (cmdAt0 0x07000000)))).map (·.fcode) = some .illegalCmd ∧
    (nextOf (step (afterCf2.facing (cmdAt0 0x01400064)))).map (·.fcode) = some .reconfigure ∧
    (nextOf (step (State.reset.facing (cmdAt0 0x03000008)))).map (·.fcode) = some .notConfigured ∧
    (State.reset.facing (cmdAt0 0x05000000)).pending ≠
      .reset :: (State.reset.facing (cmdAt0 0x05000000)).pending.tail := by decide

theorem witness_TicksChangeNothingButCountAndOutput : afterCf2.params.WellFormed := by decide

theorem witness_TimerImageIsHiddenFromTheHost : afterCf2.params.WellFormed := by decide

theorem witness_StepPseudoSetsTopAndDuty :
    afterCf2.params.WellFormed ∧ afterCf2.fault = false ∧ afterCf2.cfgDone = true ∧
    { afterCf2 with pending := stepEvents afterCf2.params 125 }.pending =
      stepEvents afterCf2.params 125 ++ [] := by decide

/-- In range and out of range (S1, S4). -/
theorem witness_TopForReturnsTheTranslation :
    State.reset.params.WellFormed ∧ State.reset.fault = false ∧
    35 = (16000000 : Word).toNat / divisor .freq1024 / (440 : Word).toNat ∧
    0 = (16000000 : Word).toNat / divisor .freq1024 / (15626 : Word).toNat ∧
    { State.reset with pending := topforEvents State.reset.params .freq1024 440 16000000 }.pending =
      topforEvents State.reset.params .freq1024 440 16000000 ++ [] := by decide

end Sys2Proof.Tests
end

section
/-! SUPPORT. The masks and values of R9 (spec/00_scope.md) through the list of pieces: under a
well-formed configuration a bit of a register lies in at most one piece, so the union of the pieces'
values has that piece's bit there. Then the obligation about them. -/

namespace Sys2Proof

/-- Bit `i` of register `r` lies in the piece (R8). -/
abbrev Piece.Covers (q : Piece) (r : CtrlReg) (i : Nat) : Prop :=
  q.reg = r ∧ q.lsb ≤ i ∧ i < q.lsb + q.width

theorem Piece.disjoint_symm : Std.Symm Piece.Disjoint where
  symm a b h := by
    unfold Piece.Disjoint at h ⊢
    rw [ne_comm (a := b.reg)]
    tauto

theorem Piece.Disjoint.not_covers {a b : Piece} {r : CtrlReg} {i : Nat} (h : a.Disjoint b)
    (ha : a.Covers r i) : ¬ b.Covers r i := by
  rintro ⟨hbr, hbl, hbu⟩
  obtain ⟨har, hal, hau⟩ := ha
  rcases h with hreg | hwidth
  · exact hreg (har.trans hbr.symm)
  · omega

/-- Of pieces that do not overlap, only one covers a given bit. -/
theorem Piece.eq_of_covers {l : List Piece} (hl : l.Pairwise Piece.Disjoint) {a b : Piece}
    {r : CtrlReg} {i : Nat} (ha : a ∈ l) (hb : b ∈ l) (hca : a.Covers r i) (hcb : b.Covers r i) :
    a = b := by
  have := Piece.disjoint_symm
  by_contra hne
  exact (hl.forall ha hb hne).not_covers hca hcb

end Sys2Proof

namespace Sys2Proof.Machine

variable {p : Params} {m : PrescaleMode} {r : CtrlReg} {q : Piece} {i : Nat}

/-- The clock-select field with the code of `m` as its value. -/
abbrev csFieldPiece (p : Params) (m : PrescaleMode) : Piece :=
  { reg := p.csPiece.reg, lsb := p.csPiece.lsb, width := p.csW, value := csCode p m }

theorem mem_piecesFor :
    q ∈ piecesFor p m ↔ q ∈ p.wgmPieces ∨ q = p.comPiece ∨ q = csFieldPiece p m := by
  simp [piecesFor]

theorem csCode_fits (h : p.WellFormed) (m : PrescaleMode) : (csCode p m).toNat < 2 ^ p.csW := by
  obtain ⟨-, -, ⟨hdirect, h8, h64, h256, h1024⟩, -⟩ := h
  cases m <;> assumption

theorem piecesFor_fits (h : p.WellFormed) (hq : q ∈ piecesFor p m) : q.Fits p.ctrlW := by
  have hcode := csCode_fits h m
  obtain ⟨-, -, -, -, hfits, -⟩ := h
  rcases mem_piecesFor.mp hq with hwgm | rfl | rfl
  · exact hfits q (by simp [Params.places, hwgm])
  · exact hfits p.comPiece (by simp [Params.places])
  · exact ⟨(hfits { csFieldPiece p m with value := 0 } (by simp [Params.places])).1, hcode⟩

/-- Overlap does not look at values, so the pieces of CFG overlap no more than the places of R8. -/
theorem piecesFor_disjoint (h : p.WellFormed) (m : PrescaleMode) :
    (piecesFor p m).Pairwise Piece.Disjoint := by
  obtain ⟨-, -, -, -, -, hdisjoint, -⟩ := h
  simpa [piecesFor, Params.places, List.pairwise_append] using hdisjoint

/-- A mask bit is set exactly where some piece of the register covers it (R9). -/
theorem fieldMask_bit (h : p.WellFormed) (m : PrescaleMode) (hi : i < 32) :
    (fieldMask p r).getLsbD i = true ↔ ∃ q ∈ piecesFor p m, q.Covers r i := by
  obtain ⟨⟨-, hctrlW⟩, -, -, -, hfits, -⟩ := h
  have hinside : ∀ q ∈ p.places.filter (·.reg = r), q.lsb + q.width ≤ 32 := fun q hq =>
    (hfits q (List.mem_filter.mp hq).1).1.trans hctrlW
  rw [fieldMask, foldr_mask_bit _ hi hinside]
  simp [Params.places, piecesFor, Piece.Covers, or_and_right, exists_or, and_assoc]

/-- A value bit is set exactly where some piece of the register has it set (R9). -/
theorem fieldValue_bit (hi : i < 32) :
    (fieldValue p r m).getLsbD i = true ↔
      ∃ q ∈ piecesFor p m, q.reg = r ∧ q.lsb ≤ i ∧ q.value.getLsbD (i - q.lsb) = true := by
  rw [fieldValue, foldr_value_bit _ hi]
  simp [and_assoc]

/-- A piece covers the bits its value sets. -/
theorem covers_of_value_bit (h : p.WellFormed) (hq : q ∈ piecesFor p m) (hr : q.reg = r)
    (hl : q.lsb ≤ i) (hv : q.value.getLsbD (i - q.lsb) = true) : q.Covers r i := by
  have hk := bit_lt_of_fits (piecesFor_fits h hq).2 hv
  exact ⟨hr, hl, by omega⟩

/-- Where a piece covers a bit, the value has the piece's bit: no other piece reaches there. -/
theorem fieldValue_bit_of_covers (h : p.WellFormed) (hi : i < 32) (hq : q ∈ piecesFor p m)
    (hc : q.Covers r i) : (fieldValue p r m).getLsbD i = q.value.getLsbD (i - q.lsb) := by
  rw [Bool.eq_iff_iff, fieldValue_bit hi]
  constructor
  · rintro ⟨q', hq', hr, hl, hv⟩
    have hqq' : q' = q := Piece.eq_of_covers (piecesFor_disjoint h m) hq' hq
      (covers_of_value_bit h hq' hr hl hv) hc
    rwa [← hqq']
  · exact fun hv => ⟨q, hq, hc.1, hc.2.1, hv⟩

/-- The value has no bit outside the mask. -/
theorem fieldValue_bit_of_mask_false (h : p.WellFormed) (hi : i < 32)
    (hmask : (fieldMask p r).getLsbD i = false) : (fieldValue p r m).getLsbD i = false := by
  rw [← Bool.not_eq_true] at hmask ⊢
  intro hv
  obtain ⟨q, hq, hr, hl, hbit⟩ := (fieldValue_bit hi).mp hv
  exact hmask ((fieldMask_bit h m hi).mpr ⟨q, hq, covers_of_value_bit h hq hr hl hbit⟩)

/-- The masks and values of the reference profile, computed (R9). -/
theorem refAvrT1_masks_and_values :
    fieldMask Params.refAvrT1 .a = 0xC3 ∧ fieldMask Params.refAvrT1 .b = 0x1F ∧
    ∀ m, fieldValue Params.refAvrT1 .a m = 0xC2 ∧
      fieldValue Params.refAvrT1 .b m = 0x18 ||| csCode Params.refAvrT1 m := by
  refine ⟨by decide, by decide, fun m => ?_⟩
  cases m <;> decide

/-- Settles O26: each clause is the general fact about a piece, taken at a WGM piece, the COM piece
and the clock-select field. -/
theorem masksAndValuesAreBuiltFromPieces : Obligations.MasksAndValuesAreBuiltFromPieces := by
  refine ⟨fun p r m i h hi => ⟨?_, ?_, ?_, ?_, fieldValue_bit_of_mask_false h hi⟩,
    refAvrT1_masks_and_values⟩
  · rw [fieldMask_bit h m hi]
    simp only [mem_piecesFor, or_and_right, exists_or, exists_eq_left]
  · exact fun q hq hr hl hu =>
      fieldValue_bit_of_covers h hi (mem_piecesFor.mpr (.inl hq)) ⟨hr, hl, hu⟩
  · exact fun hr hl hu =>
      fieldValue_bit_of_covers h hi (mem_piecesFor.mpr (.inr (.inl rfl))) ⟨hr, hl, hu⟩
  · exact fun hr hl hu =>
      fieldValue_bit_of_covers (q := csFieldPiece p m) h hi (mem_piecesFor.mpr (.inr (.inr rfl)))
        ⟨hr, hl, hu⟩

end Sys2Proof.Machine
end

section
/-! SUPPORT. Host accesses to the registers of the window (spec/20_memory.md R34, R38 to R40): what a
read, an operand write and a CMD write leave, each said once. Then the obligations about them. -/

namespace Sys2Proof.Machine

variable {s : State} {rest : List Event} {size : BusSize} {addr : Nat} {data : BusData}
  {r : HostReg} {v w : Word}

/-! ### Where the access lands -/

/-- Every register lies inside the 32-byte window (R33, R34). -/
theorem offsetOf_lt_window (r : HostReg) : offsetOf r < 32 := by
  cases r <;> decide

/-- A word read at a register's own offset answers its value and nothing else (R38). -/
theorem busRead_offsetOf (s : State) (r : HostReg) (rest : List Event) :
    busRead s .word (s.params.blockBase + offsetOf r) rest =
      s.answered rest (.data (readReg s r)) := by
  simp only [busRead, offsetIn_base_add s.params (offsetOf_lt_window r), readTarget_offsetOf]

/-- A read changes nothing but the answer, save a bus error while no fault is latched
(R38, R45). -/
theorem busRead_cases (s : State) (size : BusSize) (addr : Nat) (rest : List Event) :
    (∃ reply, busRead s size addr rest = s.answered rest reply) ∨
    (s.fault = false ∧
      busRead s size addr rest = (s.answered rest (.data 0)).setLatch .busError) := by
  simp only [busRead]
  cases offsetIn s.params addr with
  | none => exact .inl ⟨_, rfl⟩
  | some off =>
    cases ht : readTarget size off <;> simp only [ht]
    case some r => exact .inl ⟨_, rfl⟩
    case none =>
      obtain h | ⟨hf, h⟩ := raise_cases (s.answered rest (.data 0)) .busError
      · exact .inl ⟨_, h⟩
      · exact .inr ⟨hf, h⟩

/-- A word write at a writable register's own offset is answered and reaches that register
(R34, R39, R40). -/
theorem afterWrite_offsetOf (s : State) (v : Word) (rest : List Event) (hr : writable r = true) :
    afterWrite s (s.params.blockBase + offsetOf r) (.word v) rest =
      afterWriteReg (s.answered rest .written) r v := by
  simp only [afterWrite, offsetIn_base_add s.params (offsetOf_lt_window r),
    writeTarget_eq_some.mpr ⟨rfl, rfl, hr⟩]

/-! ### What a delivered word does -/

/-- A word delivered while a fault is latched is discarded (R40, R96). -/
theorem afterDeliver_of_fault (w : Word) (h : s.fault = true) : afterDeliver s w = s := by
  rw [afterDeliver, if_pos h]

/-- A delivered word that decodes runs its command, whatever the latch holds: the command discards
by itself (log 22). -/
theorem afterDeliver_of_command {i : Instr} (s : State) (h : decode w = .command i) :
    afterDeliver s w = afterCommand i s := by
  cases hf : s.fault
  · simp [afterDeliver, hf, h]
  · simp [afterDeliver, afterCommand, hf]

/-- An illegal word delivered while no fault is latched enters the latch (R40, R97). -/
theorem afterDeliver_of_illegal {why : DecodeError} (hf : s.fault = false)
    (h : decode w = .illegal why) : afterDeliver s w = s.setLatch .illegalCmd := by
  simp [afterDeliver, hf, h]

/-! ### The step that carries the access out -/

/-- A step whose next event is a read is that read. -/
theorem step_of_read (hw : s.params.WellFormed) (hp : s.pending = .read size addr :: rest) :
    step s = .next (busRead s size addr rest) := by
  simp only [step_eq hw, afterStep, hp, afterEvent]

/-- A step whose next event is a write is that write. -/
theorem step_of_write (hw : s.params.WellFormed) (hp : s.pending = .write addr data :: rest) :
    step s = .next (afterWrite s addr data rest) := by
  simp only [step_eq hw, afterStep, hp, afterEvent]

/-- A step that reads a register (R38). -/
theorem step_of_readReg (hw : s.params.WellFormed)
    (hp : s.pending = .read .word (s.params.blockBase + offsetOf r) :: rest) :
    step s = .next (s.answered rest (.data (readReg s r))) := by
  rw [step_of_read hw hp, busRead_offsetOf]

/-- A step that writes a writable register (R39, R40). -/
theorem step_of_writeReg (hr : writable r = true) (hw : s.params.WellFormed)
    (hp : s.pending = .write (s.params.blockBase + offsetOf r) (.word v) :: rest) :
    step s = .next (afterWriteReg (s.answered rest .written) r v) := by
  rw [step_of_write hw hp, afterWrite_offsetOf s v rest hr]

/-- A step that writes CMD delivers the word (R40). -/
theorem step_of_cmdWrite (hw : s.params.WellFormed)
    (hp : s.pending = .write s.params.blockBase (.word w) :: rest) :
    step s = .next (afterDeliver (s.answered rest .written) w) :=
  step_of_writeReg (r := .cmd) rfl hw hp

/-! ### The obligations -/

/-- Settles O12: each readable offset is a register's own, and any other read is one of the two
cases of a bus read. -/
theorem readsReturnRegistersAndChangeNothing :
    Obligations.ReadsReturnRegistersAndChangeNothing := by
  intro s rest hw
  refine ⟨fun off v hoff hp => ?_, fun size addr hp => ⟨_, step_of_read hw hp, ?_⟩⟩
  · obtain ⟨rfl, rfl⟩ | ⟨rfl, rfl⟩ | ⟨rfl, rfl⟩ | ⟨rfl, rfl⟩ | ⟨rfl, rfl⟩ := hoff
    · exact step_of_readReg (r := .cmd) hw hp
    · exact step_of_readReg (r := .status) hw hp
    · exact step_of_readReg (r := .freq) hw hp
    · exact step_of_readReg (r := .sysclk) hw hp
    · exact step_of_readReg (r := .result) hw hp
  · obtain ⟨reply, h⟩ | ⟨hf, h⟩ := busRead_cases s size addr rest
    · exact .inl (by rw [h]; rfl)
    · exact .inr ⟨hf, h⟩

/-- Settles O10: a CMD write delivers its word, and a delivered word is discarded, run or illegal. -/
theorem cmdWriteRunsTheDecodedCommand : Obligations.CmdWriteRunsTheDecodedCommand := by
  intro s w rest hw hp
  rw [step_of_cmdWrite hw hp]
  refine ⟨fun hf => ?_, fun i hi => ?_, fun hf why hd => ?_⟩
  · exact congrArg _ (afterDeliver_of_fault (s := s.answered rest .written) w hf)
  · rw [afterDeliver_of_command _ hi]
    exact (exec_eq_after i _).symm
  · exact congrArg _ (afterDeliver_of_illegal (s := s.answered rest .written) hf hd)

/-- Settles O13: FREQ and SYSCLK are writable, and a write that reaches one of them replaces it. -/
theorem operandWritesReplaceTheRegister : Obligations.OperandWritesReplaceTheRegister :=
  fun _ _ _ hw => ⟨step_of_writeReg (r := .freq) rfl hw, step_of_writeReg (r := .sysclk) rfl hw⟩

end Sys2Proof.Machine
end

section
/-! SUPPORT. The command word by its fields (spec/30_encoding.md R55 to R66, R70): a word decodes to an
instruction exactly when its fields are that instruction's, and it is illegal exactly when they are not
legal. Then the obligations about the rows of R61, illegal words and the encoded word. -/

namespace Sys2Proof

variable {w : Word} {r : RawCommand} {i : Instr} {o : BitVec 8}

/-! ### Decoding by the fields -/

/-- The indexes that name a mode are those up to 4 (R58, R60). -/
theorem exists_eq_index_iff {b : BitVec 3} : (∃ m : PrescaleMode, b = m.index) ↔ b.toNat ≤ 4 := by
  simp only [← modeOfIndex_isSome, Option.isSome_iff_exists, modeOfIndex_eq_some]

theorem takeMode_eq_command {b : BitVec 3} {k : PrescaleMode → Decoded} :
    takeMode b k = .command i ↔ ∃ m : PrescaleMode, b = m.index ∧ k m = .command i := by
  simp only [← modeOfIndex_eq_some, takeMode]
  cases modeOfIndex b <;> simp

theorem decodeFormI_eq_command {k : Half → Instr} :
    decodeFormI r k = .command i ↔ r.mode = 0 ∧ k r.imm = i := by
  by_cases h : r.mode = 0#3 <;> simp [decodeFormI, h]

theorem decodeFormM_eq_command {k : PrescaleMode → Instr} :
    decodeFormM r k = .command i ↔
      ∃ m : PrescaleMode, r.mode = m.index ∧ r.imm = 0 ∧ k m = i := by
  by_cases h : r.imm = 0#16 <;> simp [decodeFormM, takeMode_eq_command, h]

@[simp] theorem decodeRaw_rawOfInstr (i : Instr) : decodeRaw (rawOfInstr i) = .command i := by
  cases i <;> simp [rawOfInstr, decodeRaw, takeMode, decodeFormI, decodeFormM]

/-- Fields decode to an instruction exactly when they are that instruction's fields (R66). -/
theorem decodeRaw_eq_command : decodeRaw r = .command i ↔ r = rawOfInstr i := by
  refine ⟨fun h => ?_, fun h => h ▸ decodeRaw_rawOfInstr i⟩
  obtain ⟨opc, mode, rsv, imm⟩ := r
  rw [decodeRaw] at h
  split at h
  · cases h
  obtain rfl : rsv = 0 := not_not.mp ‹_›
  split at h
  case h_1 ho =>
    obtain rfl : opc = 1 := BitVec.eq_of_toNat_eq ho
    obtain ⟨m, rfl, ⟨⟩⟩ := takeMode_eq_command.mp h
    rfl
  case h_2 ho =>
    obtain rfl : opc = 2 := BitVec.eq_of_toNat_eq ho
    obtain ⟨rfl, rfl⟩ := decodeFormI_eq_command.mp h
    rfl
  case h_3 ho =>
    obtain rfl : opc = 3 := BitVec.eq_of_toNat_eq ho
    obtain ⟨rfl, rfl⟩ := decodeFormI_eq_command.mp h
    rfl
  case h_4 ho =>
    obtain rfl : opc = 4 := BitVec.eq_of_toNat_eq ho
    obtain ⟨m, rfl, rfl, rfl⟩ := decodeFormM_eq_command.mp h
    rfl
  case h_5 ho =>
    obtain rfl : opc = 5 := BitVec.eq_of_toNat_eq ho
    obtain ⟨m, rfl, rfl, rfl⟩ := decodeFormM_eq_command.mp h
    rfl
  case h_6 ho =>
    obtain rfl : opc = 6 := BitVec.eq_of_toNat_eq ho
    obtain ⟨m, rfl, rfl, rfl⟩ := decodeFormM_eq_command.mp h
    rfl
  case h_7 => cases h

/-- A word decodes to an instruction exactly when its fields are that instruction's (R66). -/
theorem decode_eq_command : decode w = .command i ↔ rawOfWord w = rawOfInstr i :=
  decodeRaw_eq_command

/-! ### The rows of the table -/

/-- Mask and match act on each field alone (R55). -/
theorem and_wordOfRaw_eq_iff {k : RawCommand} :
    w &&& wordOfRaw k = wordOfRaw r ↔
      w.extractLsb' 24 8 &&& k.opc = r.opc ∧ w.extractLsb' 21 3 &&& k.mode = r.mode ∧
      w.extractLsb' 16 5 &&& k.rsv = r.rsv ∧ w.extractLsb' 0 16 &&& k.imm = r.imm := by
  have hfields : rawOfWord (w &&& wordOfRaw k) = r ↔ w &&& wordOfRaw k = wordOfRaw r :=
    ⟨fun h => by rw [← h, wordOfRaw_rawOfWord], fun h => by rw [h, rawOfWord_wordOfRaw]⟩
  have hk := rawOfWord_wordOfRaw k
  rw [← hfields]
  obtain ⟨ko, km, kr, ki⟩ := k
  simp only [rawOfWord, RawCommand.mk.injEq] at hk
  obtain ⟨ro, rm, rr, ri⟩ := r
  simp only [rawOfWord, BitVec.extractLsb'_and, hk, RawCommand.mk.injEq]

/-- Form MI: the row's mask and match fix OPC and RSV (R61). -/
theorem exists_fields_mi_iff :
    (∃ (m : PrescaleMode) (v : Half), rawOfWord w = ⟨o, m.index, 0, v⟩) ↔
      w &&& 0xFF1F0000#32 = wordOfRaw ⟨o, 0, 0, 0⟩ ∧ (w.extractLsb' 21 3).toNat ≤ 4 := by
  have hmask : 0xFF1F0000#32 = wordOfRaw ⟨.allOnes 8, 0, .allOnes 5, 0⟩ := rfl
  rw [hmask, and_wordOfRaw_eq_iff, ← exists_eq_index_iff]
  simp only [BitVec.and_allOnes, rawOfWord, RawCommand.mk.injEq]
  exact ⟨fun ⟨m, _, ho, hm, hr, _⟩ => ⟨⟨ho, BitVec.and_zero, hr, BitVec.and_zero⟩, m, hm⟩,
    fun ⟨⟨ho, _, hr, _⟩, m, hm⟩ => ⟨m, _, ho, hm, hr, rfl⟩⟩

/-- Form I: the row's mask and match fix OPC, MODE and RSV (R61). -/
theorem exists_fields_i_iff :
    (∃ v : Half, rawOfWord w = ⟨o, 0, 0, v⟩) ↔ w &&& 0xFFFF0000#32 = wordOfRaw ⟨o, 0, 0, 0⟩ := by
  have hmask : 0xFFFF0000#32 = wordOfRaw ⟨.allOnes 8, .allOnes 3, .allOnes 5, 0⟩ := rfl
  rw [hmask, and_wordOfRaw_eq_iff]
  simp only [BitVec.and_allOnes, rawOfWord, RawCommand.mk.injEq]
  exact ⟨fun ⟨_, ho, hm, hr, _⟩ => ⟨ho, hm, hr, BitVec.and_zero⟩,
    fun ⟨ho, hm, hr, _⟩ => ⟨_, ho, hm, hr, rfl⟩⟩

/-- Form M: the row's mask and match fix OPC, RSV and IMM16 (R61). -/
theorem exists_fields_m_iff :
    (∃ m : PrescaleMode, rawOfWord w = ⟨o, m.index, 0, 0⟩) ↔
      w &&& 0xFF1FFFFF#32 = wordOfRaw ⟨o, 0, 0, 0⟩ ∧ (w.extractLsb' 21 3).toNat ≤ 4 := by
  have hmask : 0xFF1FFFFF#32 = wordOfRaw ⟨.allOnes 8, 0, .allOnes 5, .allOnes 16⟩ := rfl
  rw [hmask, and_wordOfRaw_eq_iff, ← exists_eq_index_iff]
  simp only [BitVec.and_allOnes, rawOfWord, RawCommand.mk.injEq]
  exact ⟨fun ⟨m, ho, hm, hr, hi⟩ => ⟨⟨ho, BitVec.and_zero, hr, hi⟩, m, hm⟩,
    fun ⟨⟨ho, _, hr, hi⟩, m, hm⟩ => ⟨m, ho, hm, hr, hi⟩⟩

/-- Settles O3: the row of each command is the row of its form with its opcode, and the operands are
fields of the word. -/
theorem tableRowsSelectCommands : Obligations.TableRowsSelectCommands := by
  intro w
  simp only [decode_eq_command]
  refine ⟨exists_fields_mi_iff, exists_fields_i_iff, exists_fields_i_iff, exists_fields_m_iff,
    exists_fields_m_iff, exists_fields_m_iff, fun m v h => ?_, fun v h => ?_, fun m h => ?_⟩
  · exact ⟨(congrArg RawCommand.mode h).symm, (congrArg RawCommand.imm h).symm⟩
  · rcases h with h | h <;> exact (congrArg RawCommand.imm h).symm
  · rcases h with h | h | h <;> exact (congrArg RawCommand.mode h).symm

/-! ### Illegal words -/

theorem opcodeForm_eq_none {opc : BitVec 8} :
    opcodeForm opc = none ↔ opc.toNat = 0 ∨ 7 ≤ opc.toNat := by
  revert opc
  decide

theorem opcodeForm_eq_mi {opc : BitVec 8} : opcodeForm opc = some .mi ↔ opc.toNat = 1 := by
  revert opc
  decide

theorem opcodeForm_eq_i {opc : BitVec 8} :
    opcodeForm opc = some .i ↔ opc.toNat = 2 ∨ opc.toNat = 3 := by
  revert opc
  decide

theorem opcodeForm_eq_m {opc : BitVec 8} :
    opcodeForm opc = some .m ↔ opc.toNat = 4 ∨ opc.toNat = 5 ∨ opc.toNat = 6 := by
  revert opc
  decide

theorem rawOfInstr_legal (i : Instr) : (rawOfInstr i).Legal := by
  rw [← rawOfWord_encode]
  cases i with
  | cfg m v => exact Laws.EncodedFields.cfg m v
  | setTop v => exact Laws.EncodedFields.setTop v
  | setDuty v => exact Laws.EncodedFields.setDuty v
  | calcTop m => exact Laws.EncodedFields.calcTop m
  | div m => exact Laws.EncodedFields.div m
  | enc m => exact Laws.EncodedFields.enc m

/-- Legal fields are the fields of an instruction, found by the opcode's form (R56, R61). -/
theorem RawCommand.Legal.exists_instr (h : r.Legal) : ∃ i, r = rawOfInstr i := by
  obtain ⟨opc, mode, rsv, imm⟩ := r
  obtain ⟨hopc, rfl, hmode, himm, hindex⟩ := h
  cases hform : opcodeForm opc with
  | none => exact absurd hform hopc
  | some form =>
    cases form with
    | mi =>
      obtain rfl : opc = 1 := BitVec.eq_of_toNat_eq (opcodeForm_eq_mi.mp hform)
      obtain ⟨m, rfl⟩ := exists_eq_index_iff.mpr (hindex (.inl hform))
      exact ⟨.cfg m imm, rfl⟩
    | i =>
      obtain rfl : mode = 0 := hmode hform
      rcases opcodeForm_eq_i.mp hform with ho | ho
      · obtain rfl : opc = 2 := BitVec.eq_of_toNat_eq ho
        exact ⟨.setTop imm, rfl⟩
      · obtain rfl : opc = 3 := BitVec.eq_of_toNat_eq ho
        exact ⟨.setDuty imm, rfl⟩
    | m =>
      obtain rfl : imm = 0 := himm hform
      obtain ⟨m, rfl⟩ := exists_eq_index_iff.mpr (hindex (.inr hform))
      rcases opcodeForm_eq_m.mp hform with ho | ho | ho
      · obtain rfl : opc = 4 := BitVec.eq_of_toNat_eq ho
        exact ⟨.calcTop m, rfl⟩
      · obtain rfl : opc = 5 := BitVec.eq_of_toNat_eq ho
        exact ⟨.div m, rfl⟩
      · obtain rfl : opc = 6 := BitVec.eq_of_toNat_eq ho
        exact ⟨.enc m, rfl⟩

/-- A word decodes to a command exactly when its fields are legal (R65, R66). -/
theorem exists_decode_eq_command_iff : (∃ i, decode w = .command i) ↔ (rawOfWord w).Legal := by
  simp only [decode_eq_command]
  exact ⟨fun ⟨i, h⟩ => h ▸ rawOfInstr_legal i, RawCommand.Legal.exists_instr⟩

theorem exists_decode_eq_illegal_iff :
    (∃ why, decode w = .illegal why) ↔ ¬ (rawOfWord w).Legal := by
  rw [← exists_decode_eq_command_iff]
  cases decode w <;> simp

/-- The conditions (a) to (e) of R65, by the opcode's form. -/
theorem RawCommand.not_legal_iff :
    ¬ r.Legal ↔ opcodeForm r.opc = none ∨ r.rsv ≠ 0 ∨ (opcodeForm r.opc = some .i ∧ r.mode ≠ 0) ∨
      (opcodeForm r.opc = some .m ∧ r.imm ≠ 0) ∨
      ((opcodeForm r.opc = some .mi ∨ opcodeForm r.opc = some .m) ∧ 4 < r.mode.toNat) := by
  simp only [RawCommand.Legal, ne_eq, not_and_or, not_not, Classical.not_imp, not_le]

end Sys2Proof

namespace Sys2Proof.Machine

/-- Writing an illegal word to CMD while no fault is latched raises ILLEGAL_CMD only (R97). -/
theorem raisesIllegalCmd_of_illegal {w : Word} (h : ∃ why, decode w = .illegal why) :
    RaisesIllegalCmd w := by
  obtain ⟨why, hd⟩ := h
  intro s rest hw hf hp
  rw [step_of_cmdWrite hw hp, afterDeliver_of_illegal (s := s.answered rest .written) hf hd]
  rfl

/-- Settles O4: illegal fields are those that R65 names, and an illegal word enters the latch. -/
theorem illegalWordsRaiseIllegalCmd : Obligations.IllegalWordsRaiseIllegalCmd := by
  refine fun w => ⟨?_, raisesIllegalCmd_of_illegal⟩
  rw [exists_decode_eq_illegal_iff, RawCommand.not_legal_iff, opcodeForm_eq_none, opcodeForm_eq_mi,
    opcodeForm_eq_i, opcodeForm_eq_m]
  rfl

end Sys2Proof.Machine

namespace Sys2Proof

/-! ### The encoded word -/

/-- A word with RSV zero is the or of its other fields, each shifted to its place (R55, R70). -/
theorem wordOfRaw_rsv_zero (o : BitVec 8) (m : BitVec 3) (v : Half) :
    wordOfRaw ⟨o, m, 0, v⟩ =
      (o.setWidth 32 <<< 24) ||| (m.setWidth 32 <<< 21) ||| v.setWidth 32 := by
  apply BitVec.eq_of_getLsbD_eq
  intro k hk
  simp only [wordOfRaw, BitVec.getLsbD_append, BitVec.getLsbD_or, BitVec.getLsbD_shiftLeft,
    BitVec.getLsbD_setWidth]
  interval_cases k <;> simp

/-- Settles O1: each command's word is its fields put together; the examples are computed. -/
theorem encodingClosedForm : Obligations.EncodingClosedForm := by
  refine ⟨fun m v => wordOfRaw_rsv_zero 1 m.index v, fun v => ?_, fun v => ?_, fun m => ?_,
    fun m => ?_, fun m => ?_, by decide⟩
  · simpa [encode, rawOfInstr] using wordOfRaw_rsv_zero 2 0 v
  · simpa [encode, rawOfInstr] using wordOfRaw_rsv_zero 3 0 v
  · simpa [encode, rawOfInstr] using wordOfRaw_rsv_zero 4 m.index 0
  · simpa [encode, rawOfInstr] using wordOfRaw_rsv_zero 5 m.index 0
  · simpa [encode, rawOfInstr] using wordOfRaw_rsv_zero 6 m.index 0

end Sys2Proof
end

section
/-! SUPPORT. The prescale-mode encoder (spec/40_prescale.md R71 to R74): the words of form M that are
no command, what DIV and ENC leave, the divisor table, and the clock-select field of the timer register
image. Then the obligations about them. -/

namespace Sys2Proof.Machine

variable {w : Word} {s : State} {m n : PrescaleMode}

/-! ### Illegal words of form M -/

/-- A form M opcode with RSV, IMM16 or MODE out of place raises ILLEGAL_CMD (R65 (b), (d), (e)). -/
theorem raisesIllegalCmd_of_form_m (hform : opcodeForm (w.extractLsb' 24 8) = some .m)
    (h : w.extractLsb' 16 5 ≠ 0 ∨ w.extractLsb' 0 16 ≠ 0 ∨ 4 < (w.extractLsb' 21 3).toNat) :
    RaisesIllegalCmd w := by
  refine raisesIllegalCmd_of_illegal (exists_decode_eq_illegal_iff.mpr ?_)
  rintro ⟨-, hrsv, -, himm, hmode⟩
  rcases h with h | h | h
  · exact h hrsv
  · exact h (himm hform)
  · exact absurd (hmode (.inr hform)) (not_le.mpr h)

/-! ### What DIV and ENC leave -/

/-- Every command is discarded while a fault is latched (R40, R96). -/
theorem exec_of_fault (i : Instr) (h : s.fault = true) : exec i s = .next s := by
  simp [exec_eq_after, afterCommand, h]

theorem exec_div (m : PrescaleMode) (h : s.fault = false) :
    exec (.div m) s = .next (s.setResult (BitVec.ofNat 32 (divisor m))) := by
  simp [exec_eq_after, afterCommand, h]

theorem exec_enc (m : PrescaleMode) (h : s.fault = false) :
    exec (.enc m) s = .next (s.setResult (csCode s.params m)) := by
  simp [exec_eq_after, afterCommand, h]

/-! ### The divisor table -/

/-- The divisor increases in the MODE index (R72). -/
theorem divisor_lt_of_index_lt : m.index.toNat < n.index.toNat → divisor m < divisor n := by
  cases m <;> cases n <;> decide

/-- The divisor is injective, since it increases in the MODE index, which is injective (R72). -/
theorem divisor_inj (h : divisor m = divisor n) : m = n := by
  apply PrescaleMode.index_inj
  apply BitVec.eq_of_toNat_eq
  rcases lt_trichotomy m.index.toNat n.index.toNat with hlt | heq | hgt
  · exact absurd h (divisor_lt_of_index_lt hlt).ne
  · exact heq
  · exact absurd h (divisor_lt_of_index_lt hgt).ne'

/-- Every divisor fits 11 bits (R72). -/
theorem divisor_lt (m : PrescaleMode) : divisor m < 2 ^ 11 := by
  cases m <;> decide

/-! ### The clock-select field -/

/-- The clock-select field, bit by bit: CS_W bits of its register from CS_PIECE's lsb on (R28). -/
theorem csField_bit (h : s.params.WellFormed) {k : Nat} (hk : k < 32) :
    s.csField.getLsbD k =
      ((s.ctrl s.params.csPiece.reg).getLsbD (s.params.csPiece.lsb + k) &&
        decide (k < s.params.csW)) := by
  obtain ⟨⟨-, hctrlW⟩, ⟨-, hcsW⟩, -⟩ := h
  have hmask := pieceMask_bit (lsb := 0) hk (by omega : 0 + s.params.csW ≤ 32)
  simp [State.csField, BitVec.getLsbD_and, BitVec.getLsbD_ushiftRight, hmask]

/-- A register that holds mode `m`'s values under its mask has `m`'s code in the clock-select field
(R9, R76). -/
theorem csField_eq_csCode (h : s.params.WellFormed)
    (hctrl : ∀ r i, i < 32 → (fieldMask s.params r).getLsbD i = true →
      (s.ctrl r).getLsbD i = (fieldValue s.params r m).getLsbD i) :
    s.csField = csCode s.params m := by
  have hmem : csFieldPiece s.params m ∈ piecesFor s.params m := mem_piecesFor.mpr (.inr (.inr rfl))
  obtain ⟨hinside, hcode⟩ := piecesFor_fits h hmem
  have ⟨⟨_, hctrlW⟩, _⟩ := h
  apply BitVec.eq_of_getLsbD_eq
  intro k hk
  rw [csField_bit h hk]
  by_cases hkw : k < s.params.csW
  · have hi : s.params.csPiece.lsb + k < 32 := by simp only at hinside; omega
    have hcovers : (csFieldPiece s.params m).Covers s.params.csPiece.reg
        (s.params.csPiece.lsb + k) := ⟨rfl, by simp, by simpa using hkw⟩
    rw [hctrl _ _ hi ((fieldMask_bit h m hi).mpr ⟨_, hmem, hcovers⟩),
      fieldValue_bit_of_covers h hi hmem hcovers]
    simp [hkw]
  · have hzero : (csCode s.params m).getLsbD k = false :=
      Bool.eq_false_iff.mpr fun hbit => hkw (bit_lt_of_fits hcode hbit)
    simp [hkw, hzero]

/-- After CFG the clock-select field of the timer register image holds ACTIVE_MODE's code (R73). -/
theorem State.Inv.csField_eq (h : s.Inv) (hc : s.cfgDone = true) :
    s.csField = csCode s.params s.activeMode :=
  csField_eq_csCode h.wellFormed fun r i hi hmask => by
    rw [h.configured hc r i hi, if_pos hmask]

/-! ### The obligations -/

/-- Settles O22: DIV's row is one of form M, and DIV leaves the divisor, mode by mode. -/
theorem divReadsTheDivisor : Obligations.DivReadsTheDivisor := by
  refine ⟨fun w => ?_, fun w hopc => ?_, fun m s => ⟨exec_of_fault _, fun hf => ?_, exec_div .freq64⟩⟩
  · simp only [decode_eq_command]
    exact exists_fields_m_iff
  · exact raisesIllegalCmd_of_form_m (by rw [hopc]; rfl)
  · rw [exec_div m hf]
    cases m <;> rfl

/-- Settles O23: ENC's row is one of form M, ENC leaves the code, mode by mode, and the invariant puts
ACTIVE_MODE's code in the clock-select field. -/
theorem encReadsTheClockSelectCode : Obligations.EncReadsTheClockSelectCode := by
  refine ⟨fun w => ?_, fun w hopc => ?_, fun m s => ⟨exec_of_fault _, fun hf => ?_,
    fun h => csCode_fits h m, fun h hc => (h.csField_eq hc).symm, fun hf hp => ?_⟩⟩
  · simp only [decode_eq_command]
    exact exists_fields_m_iff
  · exact raisesIllegalCmd_of_form_m (by rw [hopc]; rfl)
  · rw [exec_enc m hf]
    cases m <;> rfl
  · have hcode : csCode s.params .freq256 = 4 := by rw [hp]; rfl
    rw [exec_enc _ hf, hcode]
    rfl

/-- Settles O28: the table increases, so it is injective, and DIV leaves a value of 11 bits. -/
theorem divisorTableLaws : Obligations.DivisorTableLaws := by
  refine ⟨fun _ _ => divisor_inj, fun _ _ => divisor_lt_of_index_lt, rfl, rfl, rfl, rfl, rfl,
    fun m s hf => ⟨_, exec_div m hf, ?_⟩⟩
  have hlt := divisor_lt m
  apply BitVec.eq_of_toNat_eq
  simp only [State.setResult_result, BitVec.extractLsb'_toNat, BitVec.toNat_ofNat,
    BitVec.ofNat_eq_ofNat, Nat.shiftRight_eq_div_pow]
  omega

end Sys2Proof.Machine
end

section
/-! SUPPORT. The timer configuration register mapper (spec/41_configurator.md R75 to R80): the words of
forms MI and I that are no command, what CFG, SETTOP and SETDUTY leave, and the control registers after
an accepted CFG. Then the obligations about them. -/

namespace Sys2Proof.Machine

variable {w : Word} {s : State} {m : PrescaleMode} {r : CtrlReg} {i : Nat}

/-! ### Illegal words of forms MI and I -/

/-- A form MI opcode with RSV or MODE out of place raises ILLEGAL_CMD (R65 (b), (e)). -/
theorem raisesIllegalCmd_of_form_mi (hform : opcodeForm (w.extractLsb' 24 8) = some .mi)
    (h : w.extractLsb' 16 5 ≠ 0 ∨ 4 < (w.extractLsb' 21 3).toNat) : RaisesIllegalCmd w := by
  refine raisesIllegalCmd_of_illegal (exists_decode_eq_illegal_iff.mpr ?_)
  rintro ⟨-, hrsv, -, -, hmode⟩
  rcases h with h | h
  · exact h hrsv
  · exact absurd (hmode (.inl hform)) (not_le.mpr h)

/-- A form I opcode with RSV or MODE not zero raises ILLEGAL_CMD (R65 (b), (c)). -/
theorem raisesIllegalCmd_of_form_i (hform : opcodeForm (w.extractLsb' 24 8) = some .i)
    (h : w.extractLsb' 16 5 ≠ 0 ∨ w.extractLsb' 21 3 ≠ 0) : RaisesIllegalCmd w := by
  refine raisesIllegalCmd_of_illegal (exists_decode_eq_illegal_iff.mpr ?_)
  rintro ⟨-, hrsv, hmode, -, -⟩
  rcases h with h | h
  · exact h hrsv
  · exact h (hmode hform)

/-! ### What CFG, SETTOP and SETDUTY leave -/

/-- A second CFG raises RECONFIGURE (R98). -/
theorem exec_cfg_of_configured (m : PrescaleMode) (v : Half) (hf : s.fault = false)
    (hc : s.cfgDone = true) : exec (.cfg m v) s = .next (s.setLatch .reconfigure) := by
  simp [exec_eq_after, afterCommand, whenUnconfigured, hf, hc, raise_of_good]

theorem exec_cfg (m : PrescaleMode) (v : Half) (hf : s.fault = false) (hc : s.cfgDone = false) :
    exec (.cfg m v) s = .next (s.configured m v) := by
  simp [exec_eq_after, afterCommand, whenUnconfigured, hf, hc]

/-- SETTOP and SETDUTY before CFG raise NOT_CONFIGURED (R99). -/
theorem exec_of_unconfigured {c : Instr} {v : Half} (hi : c = .setTop v ∨ c = .setDuty v)
    (hf : s.fault = false) (hc : s.cfgDone = false) :
    exec c s = .next (s.setLatch .notConfigured) := by
  rcases hi with rfl | rfl <;>
    simp [exec_eq_after, afterCommand, whenConfigured, hf, hc, raise_of_good]

theorem exec_setTop (v : Half) (hf : s.fault = false) (hc : s.cfgDone = true) :
    exec (.setTop v) s = .next (s.setTop v) := by
  simp [exec_eq_after, afterCommand, whenConfigured, hf, hc]

theorem exec_setDuty (v : Half) (hf : s.fault = false) (hc : s.cfgDone = true) :
    exec (.setDuty v) s = .next (s.setDuty (halved v)) := by
  simp [exec_eq_after, afterCommand, whenConfigured, hf, hc]

/-! ### The control registers after CFG -/

/-- An accepted CFG updates both control registers by one rule (R75). -/
@[simp] theorem State.configured_ctrl (s : State) (m : PrescaleMode) (v : Half) (r : CtrlReg) :
    (s.configured m v).ctrl r =
      maskedUpdate (s.ctrl r) (fieldMask s.params r) (fieldValue s.params r m) := by
  cases r <;> rfl

/-- The masked-update law of R76, both halves in one. -/
theorem configured_ctrl_bit (v : Half) (hi : i < 32) :
    ((s.configured m v).ctrl r).getLsbD i =
      if (fieldMask s.params r).getLsbD i then (fieldValue s.params r m).getLsbD i
      else (s.ctrl r).getLsbD i := by
  rw [State.configured_ctrl, maskedUpdate_bit _ _ _ hi]

/-- The control registers of R75's example, computed. -/
theorem refAvrT1_maskedUpdate_example :
    maskedUpdate 0x0C (fieldMask Params.refAvrT1 .a)
      (fieldValue Params.refAvrT1 .a .freq1024) = 0xCE ∧
    maskedUpdate 0xC0 (fieldMask Params.refAvrT1 .b)
      (fieldValue Params.refAvrT1 .b .freq1024) = 0xDD := by
  decide

/-! ### The obligations -/

/-- Settles O18: CFG's row is one of form MI, and CFG is discarded, latches RECONFIGURE or makes the
writes of R75. -/
theorem cfgConfiguresOnce : Obligations.CfgConfiguresOnce := by
  refine ⟨fun w => ?_, fun w hopc => ?_, fun m v s => ⟨exec_of_fault _, exec_cfg_of_configured m v,
    exec_cfg m v, fun hf hc hp ha hb => ?_⟩⟩
  · simp only [decode_eq_command]
    exact exists_fields_mi_iff
  · exact raisesIllegalCmd_of_form_mi (by rw [hopc]; rfl)
  · obtain ⟨hctrlA, hctrlB⟩ := refAvrT1_maskedUpdate_example
    rw [exec_cfg _ _ hf hc, State.configured, hp, ha, hb, hctrlA, hctrlB]
    rfl

/-- Settles O19: SETTOP's row is one of form I, and SETTOP is discarded, latches NOT_CONFIGURED or
writes TOP_REG; in the example DUTY_REG keeps what CFG left, half of 0. -/
theorem setTopWritesTopOnly : Obligations.SetTopWritesTopOnly := by
  refine ⟨fun w => ?_, fun w hopc => ?_, fun v s => ⟨exec_of_fault _, exec_of_unconfigured (.inl rfl),
    exec_setTop v, fun t hf hc ht => ?_⟩⟩
  · simp only [decode_eq_command]
    exact exists_fields_i_iff
  · exact raisesIllegalCmd_of_form_i (by rw [hopc]; rfl)
  · rw [exec_cfg _ _ hf hc] at ht
    obtain rfl : s.configured .freq1024 0 = t := Host.Outcome.next.inj ht
    exact exec_setTop 125 hf rfl

/-- Settles O20: SETDUTY's row is one of form I, and SETDUTY is discarded, latches NOT_CONFIGURED or
writes half of its immediate to DUTY_REG. -/
theorem setDutyWritesHalfOnly : Obligations.SetDutyWritesHalfOnly := by
  refine ⟨fun w => ?_, fun w hopc => ?_, fun v s => ⟨exec_of_fault _, exec_of_unconfigured (.inr rfl),
    exec_setDuty v, exec_setDuty 125⟩⟩
  · simp only [decode_eq_command]
    exact exists_fields_i_iff
  · exact raisesIllegalCmd_of_form_i (by rw [hopc]; rfl)

/-- Settles O27: both halves are the masked-update law at one bit, and the second gives the
clock-select field. -/
theorem cfgPreservesUnrelatedBits : Obligations.CfgPreservesUnrelatedBits := by
  intro s m v h hf hc
  have hmasked : ∀ r i, i < 32 → (fieldMask s.params r).getLsbD i = true →
      ((s.configured m v).ctrl r).getLsbD i = (fieldValue s.params r m).getLsbD i :=
    fun r i hi hmask => by rw [configured_ctrl_bit v hi, if_pos hmask]
  refine ⟨_, exec_cfg m v hf hc, fun r i hi hmask => ?_, hmasked, ?_⟩
  · rw [configured_ctrl_bit v hi, if_neg (Bool.eq_false_iff.mp hmask)]
  · exact csField_eq_csCode (s := s.configured m v) h hmasked

end Sys2Proof.Machine
end

section
/-! SUPPORT. The frequency translator (spec/42_translator.md R85 to R91): the inputs CALC rejects, what it
leaves in each case, and how RANGE and RESULT tell the cases apart. Then the obligations about it. -/

namespace Sys2Proof.Machine

variable {s : State} {f clk : Word} {m : PrescaleMode} {n : Nat}

/-! ### The inputs CALC rejects -/

/-- The rejections of R85, in its order, with `q` as the quotient. -/
theorem topFor_eq_none :
    topFor f clk m = none ↔ f.toNat = 0 ∨ timerClock clk m / f.toNat = 0 ∨
      0xFFFF < timerClock clk m / f.toNat - 1 := by
  simp only [Option.eq_none_iff_forall_ne_some, ne_eq, topFor_eq_some]
  generalize timerClock clk m / f.toNat = q
  constructor
  · intro h
    have hq := h (q - 1)
    omega
  · intro h n
    omega

/-- The rejections of R87: a quotient of 0 is a frequency above the timer clock. -/
theorem topFor_eq_none_iff_lt :
    topFor f clk m = none ↔ f.toNat = 0 ∨ timerClock clk m < f.toNat ∨
      65535 < timerClock clk m / f.toNat - 1 := by
  rw [topFor_eq_none, Nat.div_eq_zero_iff]
  tauto

/-! ### What CALC leaves -/

theorem exec_calcTop (m : PrescaleMode) (h : s.fault = false) :
    exec (.calcTop m) s = .next (s.translated m) := by
  simp [exec_eq_after, afterCommand, h]

/-- An answer of CALC is the state its writes leave. -/
theorem eq_translated_of_exec_calcTop {t : State} (hf : s.fault = false)
    (h : exec (.calcTop m) s = .next t) : t = s.translated m := by
  rw [exec_calcTop m hf] at h
  exact (Host.Outcome.next.inj h).symm

/-- A rejected CALC sets RANGE only (R86). -/
theorem translated_of_none (h : topFor s.freq s.sysclk m = none) :
    s.translated m = s.setRange true := by
  simp [State.translated, h]

/-- An accepted CALC writes RESULT and clears RANGE (R85). -/
theorem translated_of_some (h : topFor s.freq s.sysclk m = some n) :
    s.translated m = (s.setResult (BitVec.ofNat 32 n)).setRange false := by
  simp [State.translated, h]

/-- RESULT holds an accepted TOP value untruncated (R88). -/
theorem translated_result_toNat (h : topFor s.freq s.sysclk m = some n) :
    (s.translated m).result.toNat = n := by
  have hn := topFor_lt h
  rw [translated_of_some h, State.setRange_result, State.setResult_result, BitVec.toNat_ofNat]
  omega

/-! ### RANGE tells the cases apart -/

theorem translated_range_eq_true :
    (s.translated m).range = true ↔ topFor s.freq s.sysclk m = none := by
  obtain ⟨n, hn, ht⟩ | ⟨hn, ht⟩ := translated_cases s m <;> simp [hn, ht]

/-- RANGE is 0 after a CALC exactly when RESULT holds the TOP value of the operands. -/
theorem translated_range_eq_false :
    (s.translated m).range = false ↔
      topFor s.freq s.sysclk m = some (s.translated m).result.toNat := by
  rw [← Bool.not_eq_true, translated_range_eq_true]
  constructor
  · intro h
    obtain ⟨n, hn⟩ := Option.ne_none_iff_exists'.mp h
    rw [translated_result_toNat hn, hn]
  · intro h
    simp [h]

/-- After an accepted CALC the quotient is RESULT + 1. -/
theorem div_eq_of_translated_range (h : (s.translated m).range = false) :
    timerClock s.sysclk m / s.freq.toNat = (s.translated m).result.toNat + 1 := by
  obtain ⟨-, hq, -⟩ := topFor_eq_some.mp (translated_range_eq_false.mp h)
  exact hq

/-! ### The obligations -/

/-- Settles O21: CALC's row is one of form M, and CALC is discarded, rejected or accepted as its
operands say; the example is computed. -/
theorem calcComputesTop : Obligations.CalcComputesTop := by
  refine ⟨fun w => ?_, fun w hopc => ?_, fun m s q => ⟨exec_of_fault _, fun hf h0 => ?_,
    fun hf h0 hq => ⟨fun hrej => ?_, fun hq0 hle => ?_⟩, fun hf hfreq hclk => ?_⟩⟩
  · simp only [decode_eq_command]
    exact exists_fields_m_iff
  · exact raisesIllegalCmd_of_form_m (by rw [hopc]; rfl)
  · rw [exec_calcTop m hf, translated_of_none (topFor_eq_none.mpr (.inl h0))]
    rfl
  · rw [exec_calcTop m hf, translated_of_none (topFor_eq_none.mpr (.inr (hq ▸ hrej)))]
    rfl
  · have hdiv : timerClock s.sysclk m / s.freq.toNat = q - 1 + 1 := by
      rw [Nat.sub_add_cancel (Nat.pos_of_ne_zero hq0), hq, timerClock]
    rw [exec_calcTop m hf, translated_of_some (topFor_eq_some.mpr ⟨h0, hdiv, hle⟩)]
    rfl
  · have htop : topFor s.freq s.sysclk .freq1024 = some 34 := by rw [hfreq, hclk]; decide
    rw [exec_calcTop _ hf, translated_of_some htop]
    rfl

/-- Settles O30: the three conditions are those under which no TOP value exists; otherwise RESULT + 1 is
the quotient. -/
theorem calcRejectsExactlyTheOutOfRange : Obligations.CalcRejectsExactlyTheOutOfRange := by
  rintro s m _ hf rfl
  refine ⟨fun h0 => Nat.div_eq_zero_iff_lt (Nat.pos_of_ne_zero h0), fun hrej => ?_,
    fun hacc => ?_⟩
  · rw [exec_calcTop m hf, translated_of_none (topFor_eq_none_iff_lt.mpr hrej)]
    rfl
  · obtain ⟨n, hn⟩ := Option.ne_none_iff_exists'.mp (mt topFor_eq_none_iff_lt.mp hacc)
    obtain ⟨-, hq, -⟩ := topFor_eq_some.mp hn
    refine ⟨_, exec_calcTop m hf, ?_, ?_⟩
    · rw [translated_of_some hn]
      rfl
    · rw [translated_result_toNat hn]
      exact hq.symm

/-- Settles O31: acceptance is the negation of R87's conditions; an accepted RESULT is 0 exactly when the
quotient is 1, which pins the timer clock between FREQ and twice FREQ. -/
theorem calcAcceptedExactlyInRange : Obligations.CalcAcceptedExactlyInRange := by
  rintro s m tc hf (rfl : tc = timerClock s.sysclk m)
  refine ⟨_, exec_calcTop m hf, ?_, fun hr => ?_, fun h1 heq => ?_⟩
  · rw [← Bool.not_eq_true, translated_range_eq_true, topFor_eq_none_iff_lt]
    omega
  · have hq := div_eq_of_translated_range hr
    obtain ⟨h0, -⟩ := topFor_eq_some.mp (translated_range_eq_false.mp hr)
    have hone : (s.translated m).result = 0 ↔ timerClock s.sysclk m / s.freq.toNat = 1 := by
      rw [hq, BitVec.toNat_eq]
      simp
    have hbounds : timerClock s.sysclk m / s.freq.toNat = 1 ↔
        timerClock s.sysclk m < 2 * s.freq.toNat ∧ s.freq.toNat ≤ timerClock s.sysclk m := by
      rw [Nat.div_eq_iff (Nat.pos_of_ne_zero h0)]
      omega
    exact ⟨hone.trans hbounds, hone⟩
  · have hdiv : timerClock s.sysclk m / s.freq.toNat = 0 + 1 := by
      rw [← heq, Nat.div_self h1]
    rw [translated_of_some (topFor_eq_some.mpr ⟨Nat.ne_of_gt h1, hdiv, Nat.zero_le _⟩)]
    exact ⟨rfl, rfl⟩

/-- Settles O32: nested floor division turns the quotient of an accepted CALC into one division. -/
theorem calcIsOneDivision : Obligations.CalcIsOneDivision := by
  refine ⟨fun clk d f _ => Nat.div_div_eq_div_mul clk d f, fun s t m hf he hr => ?_⟩
  obtain rfl := eq_translated_of_exec_calcTop hf he
  have hq := div_eq_of_translated_range hr
  rw [timerClock, Nat.div_div_eq_div_mul] at hq
  omega

/-- Settles O33: the quotient does not grow with the frequency, and RESULT and the rejections follow the
quotient. -/
theorem calcIsMonotone : Obligations.CalcIsMonotone := by
  intro s₁ s₂ t₁ t₂ m hf₁ hf₂ hclk h1 hle he₁ he₂
  obtain rfl := eq_translated_of_exec_calcTop hf₁ he₁
  obtain rfl := eq_translated_of_exec_calcTop hf₂ he₂
  have hmono :
      timerClock s₂.sysclk m / s₂.freq.toNat ≤ timerClock s₁.sysclk m / s₁.freq.toNat := by
    rw [hclk]
    exact Nat.div_le_div_left hle h1
  refine ⟨fun hr₁ hr₂ => ?_, fun hzero => ?_, fun hbig => ?_⟩
  · rw [div_eq_of_translated_range hr₁, div_eq_of_translated_range hr₂] at hmono
    exact Nat.le_of_succ_le_succ hmono
  · have hzero₂ : timerClock s₂.sysclk m / s₂.freq.toNat = 0 :=
      Nat.eq_zero_of_le_zero (hzero ▸ hmono)
    exact ⟨hzero₂, translated_of_none (topFor_eq_none.mpr (.inr (.inl hzero₂)))⟩
  · have hbig₁ : 65535 < timerClock s₁.sysclk m / s₁.freq.toNat - 1 :=
      hbig.trans_le (Nat.sub_le_sub_right hmono 1)
    exact ⟨hbig₁, translated_of_none (topFor_eq_none.mpr (.inr (.inr hbig₁)))⟩

end Sys2Proof.Machine
end

section
/-! SUPPORT. The order of checks and the latch (spec/60_exceptions.md R95 to R101): what a bus error and a
tick leave, what a command that passes every check leaves in the latch, and that only reset clears it.
Then the obligations about them. -/

namespace Sys2Proof.Machine

variable {s : State} {rest : List Event} {size : BusSize} {addr : Nat} {data : BusData}

/-! ### Bus errors -/

/-- A read that is a bus error answers zero and raises BUS_ERROR (R45, R100). -/
theorem busRead_of_isBusError (rest : List Event)
    (h : (Event.read size addr).IsBusError s.params) :
    busRead s size addr rest = (s.answered rest (.data 0)).raise .busError := by
  obtain ⟨hlo, hhi, hbad⟩ := h
  have hoff : offsetIn s.params addr = some (addr - s.params.blockBase) :=
    offsetIn_eq_some.mpr (by omega)
  simp only [busRead, hoff, readTarget_eq_none hbad]

/-- A write that is a bus error writes no register and raises BUS_ERROR (R45, R100). -/
theorem afterWrite_of_isBusError (rest : List Event)
    (h : (Event.write addr data).IsBusError s.params) :
    afterWrite s addr data rest = (s.answered rest .written).raise .busError := by
  obtain ⟨hlo, hhi, hbad⟩ := h
  have hoff : offsetIn s.params addr = some (addr - s.params.blockBase) :=
    offsetIn_eq_some.mpr (by omega)
  simp only [afterWrite, hoff, writeTarget_eq_none hbad]

/-- A step whose read is a bus error (R100). -/
theorem step_of_badRead (hw : s.params.WellFormed) (hp : s.pending = .read size addr :: rest)
    (h : (Event.read size addr).IsBusError s.params) :
    step s = .next ((s.answered rest (.data 0)).raise .busError) := by
  rw [step_of_read hw hp, busRead_of_isBusError rest h]

/-- A step whose write is a bus error (R100). -/
theorem step_of_badWrite (hw : s.params.WellFormed) (hp : s.pending = .write addr data :: rest)
    (h : (Event.write addr data).IsBusError s.params) :
    step s = .next ((s.answered rest .written).raise .busError) := by
  rw [step_of_write hw hp, afterWrite_of_isBusError rest h]

/-! ### Ticks -/

/-- A step whose next event is a tick is that tick (R110). -/
theorem step_of_tick (hw : s.params.WellFormed) (hp : s.pending = .tick :: rest) :
    step s = .next (s.ticked.advanced rest) := by
  simp only [step_eq hw, afterStep, hp, afterEvent]

/-- A tick does what it does under any other latch, and keeps its own (R96, R110). -/
theorem ticked_eq_otherLatch (s : State) (b : Bool) (c : FaultCode) :
    s.ticked = { State.ticked { s with fault := b, fcode := c } with
      fault := s.fault, fcode := s.fcode } := by
  simp only [State.ticked]
  split <;> rfl

/-! ### The latch -/

/-- A command that passes the discard and sequencing checks leaves the latch as it was (R101). -/
theorem afterCommand_latch {i : Instr} (hf : s.fault = false)
    (hcfg : (∃ m v, i = .cfg m v) → s.cfgDone = false)
    (hset : (∃ v, i = .setTop v ∨ i = .setDuty v) → s.cfgDone = true) :
    (afterCommand i s).fault = false ∧ (afterCommand i s).fcode = s.fcode := by
  obtain ⟨hf', _⟩ | ⟨_, hc, hi, _⟩ | ⟨_, hc, hi, _⟩ | ⟨_, _, _, _, _, h⟩ | ⟨_, _, _, _, h⟩ |
    ⟨_, _, _, _, h⟩ | ⟨_, _, _, _, _, h⟩ | ⟨_, _, _, _, h⟩ | ⟨_, _, _, h⟩ | ⟨_, _, _, h⟩ :=
    afterCommand_cases i s
  · simp [hf] at hf'
  · simp [hcfg hi] at hc
  · simp [hset hi] at hc
  all_goals simp [h, hf]

/-- A latched fault stays with its code through every event but a reset (R26, R103, R116). -/
theorem afterStep_latch_of_fault (hf : s.fault = true) :
    (∃ rest, s.pending = .reset :: rest) ∨
      ((afterStep s).fault = true ∧ (afterStep s).fcode = s.fcode) := by
  have hstays : ∀ {u : State}, afterStep s = u → u.fault = s.fault → u.fcode = s.fcode →
      (afterStep s).fault = true ∧ (afterStep s).fcode = s.fcode := by
    rintro _ rfl hfault hcode
    exact ⟨hfault.trans hf, hcode⟩
  obtain ⟨-, h⟩ | ⟨rest, hp, -⟩ | ⟨_, -, -, h⟩ | ⟨_, -, -, h⟩ | ⟨_, _, _, -, -, -, h⟩ |
    ⟨_, _, _, -, -, hclear, -⟩ | ⟨_, _, -, h⟩ | ⟨_, _, -, h⟩ | ⟨_, _, -, hclear, -⟩ |
    ⟨_, _, _, -, hclear, -⟩ := afterStep_cases s
  · exact .inr (hstays h rfl rfl)
  · exact .inl ⟨rest, hp⟩
  · exact .inr (hstays h rfl rfl)
  · exact .inr (hstays h rfl rfl)
  · exact .inr (hstays h rfl rfl)
  · cases hf.symm.trans hclear
  · exact .inr (hstays h rfl rfl)
  · exact .inr (hstays h rfl rfl)
  · cases hf.symm.trans hclear
  · cases hf.symm.trans hclear

/-! ### The obligations -/

/-- Settles O16: a bus error enters a clear latch, and a CMD write passes the checks of R101 one by
one. -/
theorem checksAreMadeInOrder : Obligations.ChecksAreMadeInOrder := by
  intro s rest hw
  refine ⟨fun size addr hp hf hlo hhi hbad => ?_, fun addr data hp hf hlo hhi hbad => ?_,
    fun w hp u hu => ?_⟩
  · refine ⟨_, step_of_badRead hw hp ⟨hlo, hhi, hbad⟩, raise_fault _ _, ?_⟩
    rw [raise_of_good (s := s.answered rest _) _ hf, State.setLatch_fcode]
  · refine ⟨_, step_of_badWrite hw hp ⟨hlo, hhi, hbad⟩, raise_fault _ _, ?_⟩
    rw [raise_of_good (s := s.answered rest _) _ hf, State.setLatch_fcode]
  · obtain rfl : u = s.answered rest .written := hu
    rw [step_of_cmdWrite hw hp]
    refine ⟨fun hf => congrArg _ (afterDeliver_of_fault w hf), fun hf => ⟨fun why hd => ?_,
      fun m v hd hc => ?_, fun v hd hc => ?_, fun i hd hcfg hset => ?_⟩⟩
    · exact congrArg _ (afterDeliver_of_illegal hf hd)
    · rw [afterDeliver_of_command _ hd, ← exec_eq_after]
      exact exec_cfg_of_configured m v hf hc
    · rcases hd with hd | hd <;> rw [afterDeliver_of_command _ hd, ← exec_eq_after]
      · exact exec_of_unconfigured (.inl rfl) hf hc
      · exact exec_of_unconfigured (.inr rfl) hf hc
    · rw [afterDeliver_of_command _ hd]
      exact ⟨_, rfl, exec_eq_after i _, afterCommand_latch hf hcfg hset⟩

/-- Settles O17: accesses meet the set latch one kind at a time, a tick does not look at it, and the
latch stays through every event but a reset. -/
theorem faultedBlockStillReadsWritesAndTicks :
    Obligations.FaultedBlockStillReadsWritesAndTicks := by
  intro s rest hw hf
  refine ⟨fun w hp => ?_, fun v => step_of_writeReg (r := .freq) rfl hw,
    fun v => step_of_writeReg (r := .sysclk) rfl hw, fun r => step_of_readReg hw,
    fun size addr hp hlo hhi hbad => ?_, fun addr data hp hlo hhi hbad => ?_, fun hp => ?_,
    fun t ht hclear => ?_⟩
  · rw [step_of_cmdWrite hw hp, afterDeliver_of_fault (s := s.answered rest .written) w hf]
    rfl
  · rw [step_of_badRead hw hp ⟨hlo, hhi, hbad⟩, raise_of_fault (s := s.answered rest _) _ hf]
    rfl
  · rw [step_of_badWrite hw hp ⟨hlo, hhi, hbad⟩, raise_of_fault (s := s.answered rest _) _ hf]
    rfl
  · refine ⟨_, _, step_of_tick hw hp,
      step_of_tick (s := { s with fault := false, fcode := .none }) hw hp, ?_⟩
    have hticked := ticked_eq_otherLatch s false .none
    rw [hf] at hticked
    exact congrArg (State.advanced · rest) hticked
  · obtain ⟨-, rfl⟩ := step_next ht
    obtain ⟨rest, hp⟩ | ⟨hstays, -⟩ := afterStep_latch_of_fault hf
    · rw [hp, List.tail_cons]
    · exact absurd (hstays.symm.trans hclear) nofun

end Sys2Proof.Machine
end

section
/-! SUPPORT. Reset (spec/70_reset_and_hazards.md R116 to R118): the step it is, and what the host and the
pin show of the state it leaves. Then the obligation about it. -/

namespace Sys2Proof.Machine

variable {s : State} {rest : List Event}

/-- STATUS is the same word whatever the events still to come are (R21). -/
@[simp] theorem statusWord_advanced (s : State) (rest : List Event) :
    statusWord (s.advanced rest) = statusWord s := rfl

/-- The pin is at the same level whatever the events still to come are (R114). -/
@[simp] theorem pinLevel_advanced (s : State) (rest : List Event) :
    pinLevel (s.advanced rest) = pinLevel s := rfl

/-- STATUS reads zero after reset, whatever TIMER_INIT is (R117). -/
@[simp] theorem statusWord_resetWith (p : Params) : statusWord (State.resetWith p) = 0 := by
  simp only [statusWord, State.resetWith]
  decide

/-- The pin is undriven after reset (R114, R117). -/
@[simp] theorem pinLevel_resetWith (p : Params) : pinLevel (State.resetWith p) = none := rfl

/-- A step whose next event is a reset leaves the reset state of the configuration, with the later
events still to come (R116, log 7). -/
theorem step_of_reset (hw : s.params.WellFormed) (hp : s.pending = .reset :: rest) :
    step s = .next ((State.resetWith s.params).advanced rest) := by
  simp only [step_eq hw, afterStep, hp, afterEvent, resetNow]

/-! ### The obligation -/

/-- Settles O40: the step is the reset transition, whose state takes nothing from the state before but
the configuration and the later events; each register is then read off that state. -/
theorem resetSetsEveryRegister : Obligations.ResetSetsEveryRegister := by
  intro s rest hw hp
  have hstatus : statusWord ((State.resetWith s.params).advanced rest) = 0 := by simp
  have hpin : pinLevel ((State.resetWith s.params).advanced rest) = none := by simp
  exact ⟨_, step_of_reset hw hp, rfl, rfl, rfl, rfl, rfl, rfl, rfl, rfl, rfl, rfl, rfl, hstatus, hpin,
    rfl, rfl, rfl, rfl, rfl, rfl, rfl, rfl⟩

end Sys2Proof.Machine
end

section
/-! SUPPORT. Encoding on words, byte lanes and the table's numbering (spec/30_encoding.md R54, R66;
spec/20_memory.md R37): decoding the lanes of a word, or its number, is decoding the word. Then the
obligations about them. -/

namespace Sys2Proof

variable {w : Word} {i : Instr}

@[simp] theorem decode_encode (i : Instr) : decode (encode i) = .command i :=
  decode_eq_command.mpr (rawOfWord_encode i)

/-- The four lanes of a command's word decode to the command and leave the bytes after them (R54). -/
theorem decodeBytes_lanesOfWord (rest : List Byte) (h : decode w = .command i) :
    decodeBytes (lanesOfWord w ++ rest) = .command i rest := by
  simp only [lanesOfWord, List.cons_append, List.nil_append, decodeBytes, wordOfLanes_lanes, h]

/-- A word is read back from its number. -/
theorem ofNat_toNat_mod_word (w : Word) : BitVec.ofNat 32 (w.toNat % 2 ^ 32) = w := by
  rw [Nat.mod_eq_of_lt w.isLt, BitVec.ofNat_toNat, BitVec.setWidth_eq]

/-- The number of a command's word decodes to the command. -/
theorem decodeTableWord_toNat (h : decode w = .command i) :
    decodeTableWord 32 w.toNat = some i := by
  have hbytes : decodeBytes (lanesOfWord w) = .command i [] := by
    simpa using decodeBytes_lanesOfWord [] h
  rw [decodeTableWord, if_pos le_rfl, ofNat_toNat_mod_word, hbytes]

theorem laneOfWord_bit (w : Word) {k j : Nat} (hj : j < 8) :
    (laneOfWord w k).getLsbD j = w.getLsbD (8 * k + j) := by
  simp [laneOfWord, hj]

/-- Settles O5: the word decodes by its fields, and the lanes and the number decode as the word
does. -/
theorem decodeOfEncodeIsTheInstruction : Obligations.DecodeOfEncodeIsTheInstruction :=
  fun i rest => ⟨decode_encode i, decodeBytes_lanesOfWord rest (decode_encode i),
    decodeTableWord_toNat (decode_encode i)⟩

/-- Settles O6: the word and the encoded word have the same fields, so they are one word. -/
theorem encodeOfDecodeIsTheWord : Obligations.EncodeOfDecodeIsTheWord :=
  fun _ i h => rawOfWord_inj ((rawOfWord_encode i).trans (decode_eq_command.mp h).symm)

/-- Settles O7: a lane is a slice of the word, and the four slices make the word. -/
theorem byteLanesAreLittleEndian : Obligations.ByteLanesAreLittleEndian :=
  fun w => ⟨fun _ _ _ hj => laneOfWord_bit w hj, wordOfLanes_lanes w⟩

/-- Settles O2: eleven fixed words, computed. -/
theorem wordsOfTheSpecDecode : Obligations.WordsOfTheSpecDecode := by
  unfold Obligations.WordsOfTheSpecDecode
  decide

end Sys2Proof
end

section
/-! SUPPORT. The assembler (spec/30_encoding.md R67): a mode's place takes the five member names only,
a printed immediate reads as its value, and an immediate's place takes numbers below 65536 only. Then
the obligation about it. -/

namespace Sys2Proof.Machine

variable {t : Text} {m : PrescaleMode} {n : Nat}

/-! ### Mode names -/

@[simp] theorem modeOfName_modeName (m : PrescaleMode) : modeOfName (modeName m) = some m := by
  cases m <;> decide

theorem modeOfName_eq_some : modeOfName t = some m ↔ t = modeName m := by
  constructor
  · intro h
    have hname : (modeName m == t) = true := List.find?_some (p := fun m => modeName m == t) h
    exact (eq_of_beq hname).symm
  · rintro rfl
    exact modeOfName_modeName m

theorem modeOfName_eq_none (h : ∀ m, t ≠ modeName m) : modeOfName t = none :=
  Option.eq_none_iff_forall_ne_some.mpr fun m hm => h m (modeOfName_eq_some.mp hm)

/-- A text that is none of the five names of R60 is the name of no mode. -/
theorem ne_modeName (h : t ≠ "Direct".toList) (h8 : t ≠ "Freq8".toList)
    (h64 : t ≠ "Freq64".toList) (h256 : t ≠ "Freq256".toList) (h1024 : t ≠ "Freq1024".toList) :
    ∀ m, t ≠ modeName m := by
  intro m
  cases m <;> assumption

/-! ### Immediates -/

@[simp] theorem digitValue_hexDigit (d : BitVec 4) : digitValue 16 (hexDigit d) = some d.toNat := by
  revert d
  decide

/-- The four digits of a printed immediate carry its value (log 20). -/
@[simp] theorem numberOfText_immText (v : Half) : numberOfText (immText v) = some v.toNat := by
  simp only [numberOfText, immText, readNumber, readDigits, digitValue_hexDigit,
    BitVec.extractLsb'_toNat, Nat.shiftRight_eq_div_pow, Option.some.injEq]
  have := v.isLt
  omega

theorem immOfText_eq_ok {bits : Nat} (h : numberOfText t = some n) (hn : n < 2 ^ bits) :
    immOfText bits t = .ok n := by
  simp only [immOfText, h, if_pos hn]

theorem immOfText_eq_tooLarge {bits : Nat} (h : numberOfText t = some n) (hn : 2 ^ bits ≤ n) :
    immOfText bits t = .refused .tooLarge := by
  simp only [immOfText, h, if_neg (not_lt.mpr hn)]

/-! ### The three forms -/

theorem assembleM_modeName (k : PrescaleMode → Instr) (m : PrescaleMode) :
    assembleM k [modeName m] = .ok (k m) := by
  simp only [assembleM, modeOfName_modeName]

theorem assembleM_refused (k : PrescaleMode → Instr) (h : ∀ m, t ≠ modeName m) :
    assembleM k [t] = .refused .modeName := by
  simp only [assembleM, modeOfName_eq_none h]

theorem assembleI_ok (k : Half → Instr) (h : numberOfText t = some n) (hn : n < 65536) :
    assembleI k [t] = .ok (k (BitVec.ofNat 16 n)) := by
  simp only [assembleI, immOfText_eq_ok (bits := 16) h hn]

theorem assembleI_tooLarge (k : Half → Instr) (h : numberOfText t = some n) (hn : 65536 ≤ n) :
    assembleI k [t] = .refused .tooLarge := by
  simp only [assembleI, immOfText_eq_tooLarge (bits := 16) h hn]

theorem assembleI_immText (k : Half → Instr) (v : Half) : assembleI k [immText v] = .ok (k v) := by
  rw [assembleI_ok k (numberOfText_immText v) v.isLt, BitVec.ofNat_toNat, BitVec.setWidth_eq]

theorem assembleMI_modeName (k : PrescaleMode → Half → Instr) (m : PrescaleMode) (t : Text) :
    assembleMI k [modeName m, t] = assembleI (k m) [t] := by
  simp only [assembleMI, modeOfName_modeName]

theorem assembleMI_refused (k : PrescaleMode → Half → Instr) (x : Text)
    (h : ∀ m, t ≠ modeName m) : assembleMI k [t, x] = .refused .modeName := by
  simp only [assembleMI, modeOfName_eq_none h]

/-! ### The obligation -/

/-- An instruction's mnemonic and operand text assemble to it, by the form of its row (R67). -/
theorem assembleCommand_text (i : Instr) :
    assembleCommand (mnemonicText i) (operandText i) = .ok i := by
  cases i with
  | cfg m v => exact (assembleMI_modeName .cfg m _).trans (assembleI_immText _ v)
  | setTop v => exact assembleI_immText .setTop v
  | setDuty v => exact assembleI_immText .setDuty v
  | calcTop m => exact assembleM_modeName .calcTop m
  | div m => exact assembleM_modeName .div m
  | enc m => exact assembleM_modeName .enc m

/-- Settles O8: each clause is what the operand's form does with a mode's name, another text, a small
or a large number. -/
theorem assemblerReadsItsOwnText : Obligations.AssemblerReadsItsOwnText := by
  refine ⟨assembleCommand_text, rfl, rfl, rfl, rfl, rfl, fun _ _ => modeOfName_eq_some,
    fun m => ⟨assembleM_modeName .calcTop m, assembleM_modeName .div m, assembleM_modeName .enc m⟩,
    fun t h h8 h64 h256 h1024 => ?_, fun t n h hn => ?_, fun t n h hn => ?_⟩
  · have hname := ne_modeName h h8 h64 h256 h1024
    exact ⟨assembleM_refused .calcTop hname, assembleM_refused .div hname,
      assembleM_refused .enc hname, fun x => assembleMI_refused .cfg x hname⟩
  · exact ⟨assembleI_ok .setTop h hn, assembleI_ok .setDuty h hn,
      fun m => (assembleMI_modeName .cfg m t).trans (assembleI_ok (.cfg m) h hn)⟩
  · exact ⟨assembleI_tooLarge .setTop h hn, assembleI_tooLarge .setDuty h hn,
      fun m => (assembleMI_modeName .cfg m t).trans (assembleI_tooLarge (.cfg m) h hn)⟩

end Sys2Proof.Machine
end

section
/-! SUPPORT. The TIMER agent (spec/60_exceptions.md R110 to R113): one tick, then any number of ticks
as the iterate of one, with an induction over the count and the output between two bottoms. Then the
obligations about them. -/

namespace Sys2Proof.Machine

variable {s : State} {rest : List Event} {n : Nat} {c top duty : Half} {out : Bool} {o : Overshoot}
  {k : Coincide}

/-! ### The count (R111) -/

@[simp] theorem nextCount_self : nextCount o top top = 0 := if_pos rfl

theorem nextCount_of_lt (h : c.toNat < top.toNat) : nextCount o c top = c + 1 := by
  have hne : c ≠ top := fun heq => absurd (congrArg BitVec.toNat heq) h.ne
  rw [nextCount, if_neg hne, if_neg fun hgt => lt_asymm h hgt.2]

theorem nextCount_countToMax_of_gt (h : top.toNat < c.toNat) :
    nextCount .countToMax c top = c + 1 := by
  have hne : c ≠ top := fun heq => absurd (congrArg BitVec.toNat heq) h.ne'
  rw [nextCount, if_neg hne, if_neg fun hreset => nomatch hreset.1]

theorem nextCount_resetNow_of_gt (h : top.toNat < c.toNat) : nextCount .resetNow c top = 0 := by
  have hne : c ≠ top := fun heq => absurd (congrArg BitVec.toNat heq) h.ne'
  rw [nextCount, if_neg hne, if_pos ⟨rfl, h⟩]

/-- Counting up from below another value does not wrap. -/
theorem toNat_add_one_of_lt (h : c.toNat < top.toNat) : (c + 1).toNat = c.toNat + 1 := by
  have := top.isLt
  simp only [BitVec.toNat_add, BitVec.toNat_ofNat, BitVec.ofNat_eq_ofNat]
  omega

/-- At or below TOP the count goes through TOP + 1 states (R111). -/
theorem nextCount_toNat_of_le (h : c.toNat ≤ top.toNat) :
    (nextCount o c top).toNat = (c.toNat + 1) % (top.toNat + 1) := by
  rcases h.lt_or_eq with hlt | heq
  · rw [nextCount_of_lt hlt, toNat_add_one_of_lt hlt, Nat.mod_eq_of_lt (by omega)]
  · obtain rfl : c = top := BitVec.eq_of_toNat_eq heq
    simp

/-! ### The output (R113) -/

theorem coincideLevel_eq_true : coincideLevel k = true ↔ k = .setWins := by
  cases k <;> simp [coincideLevel]

/-- At bottom the output does not depend on what it was. -/
theorem nextOut_bottom :
    nextOut k 0 duty out = if duty = 0 then coincideLevel k else false := by
  simp only [nextOut, if_true, eq_comm (a := (0 : Half))]

theorem nextOut_match (h : c ≠ 0) : nextOut k c c out = true := by
  rw [nextOut, if_neg h, if_pos rfl]

theorem nextOut_of_ne (h : c ≠ 0) (hduty : c ≠ duty) : nextOut k c duty out = out := by
  rw [nextOut, if_neg h, if_neg hduty]

/-! ### One tick -/

theorem ticked_of_unconfigured (h : s.cfgDone = false) : s.ticked = s := by
  simp [State.ticked, h]

theorem ticked_of_configured (h : s.cfgDone = true) :
    s.ticked = s.setCount (nextCount s.params.overshoot s.tcnt s.topReg)
      (nextOut s.params.coincide (nextCount s.params.overshoot s.tcnt s.topReg) s.dutyReg s.out) := by
  simp [State.ticked, h]

/-- A tick writes TCNT and OUT only (R115). -/
theorem ticked_eq_setCount (s : State) : s.ticked = s.setCount s.ticked.tcnt s.ticked.out := by
  unfold State.ticked
  split <;> rfl

/-- A tick does not look at the events still to come. -/
theorem ticked_advanced (s : State) (rest : List Event) :
    (s.advanced rest).ticked = s.ticked.advanced rest := by
  cases hc : s.cfgDone
  · rw [ticked_of_unconfigured hc, ticked_of_unconfigured (s := s.advanced rest) hc]
  · rw [ticked_of_configured hc, ticked_of_configured (s := s.advanced rest) hc]
    rfl

/-- Settles O35: the tick of a stopped or a running counter, the new count and output by their
cases. -/
theorem tickCountsAndCompares : Obligations.TickCountsAndCompares := by
  intro s rest hw hp
  rw [step_of_tick hw hp]
  refine ⟨fun hc => by rw [ticked_of_unconfigured hc]; rfl, fun hc => ?_⟩
  refine ⟨nextCount s.params.overshoot s.tcnt s.topReg, _, by rw [ticked_of_configured hc]; rfl,
    fun h => by rw [h, nextCount_self], fun h ho => by rw [ho, nextCount_resetNow_of_gt h],
    fun h ho => by rw [ho, nextCount_countToMax_of_gt h], nextCount_of_lt,
    fun h0 hd => ?_, fun h0 hd => ?_, fun h0 hd => ?_, nextOut_of_ne⟩
  · rw [h0, nextOut_bottom, if_pos (hd ▸ h0), coincideLevel_eq_true]
  · rw [h0, nextOut_bottom, if_neg fun hzero => hd (h0.trans hzero.symm)]
  · rw [← hd, nextOut_match h0]

/-! ### Any number of ticks -/

/-- Steps over ticks alone are ticks. -/
theorem afterSteps_ticks (hp : s.pending = List.replicate n .tick ++ rest) :
    afterSteps n s = (State.ticked^[n] s).advanced rest := by
  induction n generalizing rest with
  | zero =>
    obtain rfl : s.pending = rest := hp
    rfl
  | succ n ih =>
    have hp' : s.pending = List.replicate n .tick ++ .tick :: rest := by
      simpa [List.replicate_succ'] using hp
    have hlast : afterStep ((State.ticked^[n] s).advanced (.tick :: rest)) =
        ((State.ticked^[n] s).advanced (.tick :: rest)).ticked.advanced rest := rfl
    rw [afterSteps_succ, ih hp', hlast, ticked_advanced, Function.iterate_succ_apply']
    rfl

theorem runSteps_ticks (hw : s.params.WellFormed)
    (hp : s.pending = List.replicate n .tick ++ rest) :
    runSteps n s = .next ((State.ticked^[n] s).advanced rest) := by
  rw [runSteps_eq n s hw, afterSteps_ticks hp]

/-- Ticks write TCNT and OUT only (R115). -/
theorem iterate_ticked_eq_setCount (n : Nat) (s : State) :
    State.ticked^[n] s = s.setCount (State.ticked^[n] s).tcnt (State.ticked^[n] s).out := by
  induction n with
  | zero => rfl
  | succ n ih =>
    rw [Function.iterate_succ_apply', ticked_eq_setCount, ih]
    rfl

/-- One more tick of a running counter, TOP_REG and DUTY_REG held. -/
theorem iterate_ticked_succ (n : Nat) (h : s.cfgDone = true) :
    State.ticked^[n + 1] s =
      s.setCount (nextCount s.params.overshoot (State.ticked^[n] s).tcnt s.topReg)
        (nextOut s.params.coincide
          (nextCount s.params.overshoot (State.ticked^[n] s).tcnt s.topReg) s.dutyReg
          (State.ticked^[n] s).out) := by
  have hframe := iterate_ticked_eq_setCount n s
  generalize (State.ticked^[n] s).tcnt = c at hframe ⊢
  generalize (State.ticked^[n] s).out = out at hframe ⊢
  rw [Function.iterate_succ_apply', hframe, ticked_of_configured (s := s.setCount c out) h]
  rfl

/-! ### The count over any number of ticks -/

theorem tcnt_iterate_ticked_eq_mod (h : s.cfgDone = true) (hle : s.tcnt.toNat ≤ s.topReg.toNat)
    (n : Nat) :
    (State.ticked^[n] s).tcnt.toNat = (s.tcnt.toNat + n) % (s.topReg.toNat + 1) := by
  induction n with
  | zero => simpa using (Nat.mod_eq_of_lt (Nat.lt_succ_of_le hle)).symm
  | succ n ih =>
    have hcount : (State.ticked^[n] s).tcnt.toNat ≤ s.topReg.toNat :=
      ih ▸ Nat.le_of_lt_succ (Nat.mod_lt _ (Nat.succ_pos _))
    rw [iterate_ticked_succ n h, State.setCount_tcnt, nextCount_toNat_of_le hcount, ih,
      Nat.mod_add_mod, Nat.add_assoc]

theorem tcnt_iterate_ticked_le (h : s.cfgDone = true) (hle : s.tcnt.toNat ≤ s.topReg.toNat)
    (n : Nat) : (State.ticked^[n] s).tcnt.toNat ≤ s.topReg.toNat := by
  rw [tcnt_iterate_ticked_eq_mod h hle]
  exact Nat.le_of_lt_succ (Nat.mod_lt _ (Nat.succ_pos _))

/-- Above TOP_REG under COUNT_TO_MAX the count runs on up to the wrap (R111, R122). -/
theorem tcnt_iterate_ticked_countToMax (h : s.cfgDone = true)
    (hgt : s.topReg.toNat < s.tcnt.toNat) (ho : s.params.overshoot = .countToMax)
    (hn : s.tcnt.toNat + n ≤ 65536) :
    (State.ticked^[n] s).tcnt.toNat = (s.tcnt.toNat + n) % 65536 := by
  induction n with
  | zero => simpa using (Nat.mod_eq_of_lt s.tcnt.isLt).symm
  | succ n ih =>
    have hcount : (State.ticked^[n] s).tcnt.toNat = s.tcnt.toNat + n := by
      rw [ih (by omega), Nat.mod_eq_of_lt (by omega)]
    rw [iterate_ticked_succ n h, State.setCount_tcnt, ho,
      nextCount_countToMax_of_gt (by omega), BitVec.toNat_add, hcount]
    rfl

/-- Settles O36: the steps are ticks, and the count of the ticks is that of its range. -/
theorem counterCyclesThroughTopPlusOneStates :
    Obligations.CounterCyclesThroughTopPlusOneStates := by
  intro n s rest hw hc hp
  refine ⟨_, runSteps_ticks hw hp, ?_, fun hle => tcnt_iterate_ticked_eq_mod hc hle n,
    fun hgt ho hn => tcnt_iterate_ticked_countToMax hc hgt ho hn, fun hgt ho hn => ?_⟩
  · exact congrArg (State.advanced · rest) (iterate_ticked_eq_setCount n s)
  · subst hn
    rw [State.advanced_tcnt, iterate_ticked_succ 0 hc, State.setCount_tcnt, ho,
      Function.iterate_zero_apply, nextCount_resetNow_of_gt hgt]

/-! ### The output over any number of ticks -/

/-- Induction over the count and the output: what every bottom establishes, and counting up below TOP
keeps, holds from the first bottom on, and from the start if it holds there. -/
theorem iterate_ticked_induction {P : Half → Bool → Prop} (h : s.cfgDone = true)
    (hle : s.tcnt.toNat ≤ s.topReg.toNat)
    (hbottom : ∀ out, P 0 (nextOut s.params.coincide 0 s.dutyReg out))
    (hup : ∀ c out, c.toNat < s.topReg.toNat → P c out →
      P (c + 1) (nextOut s.params.coincide (c + 1) s.dutyReg out))
    (hstart : P s.tcnt s.out ∨ s.topReg.toNat + 1 ≤ s.tcnt.toNat + n) :
    P (State.ticked^[n] s).tcnt (State.ticked^[n] s).out := by
  induction n with
  | zero => exact hstart.resolve_right (by omega)
  | succ n ih =>
    have hcount := tcnt_iterate_ticked_eq_mod h hle n
    rw [iterate_ticked_succ n h, State.setCount_tcnt, State.setCount_out]
    by_cases htop : (State.ticked^[n] s).tcnt = s.topReg
    · rw [htop, nextCount_self]
      exact hbottom _
    · have hne : (State.ticked^[n] s).tcnt.toNat ≠ s.topReg.toNat :=
        mt BitVec.eq_of_toNat_eq htop
      have hlt := (tcnt_iterate_ticked_le h hle n).lt_of_ne hne
      rw [nextCount_of_lt hlt]
      refine hup _ _ hlt (ih (hstart.imp_right fun hpast => ?_))
      by_contra hbefore
      rw [Nat.mod_eq_of_lt (by omega)] at hcount
      omega

theorem add_one_ne_zero_of_lt (h : c.toNat < top.toNat) : c + 1 ≠ 0 := by
  intro hzero
  have := toNat_add_one_of_lt h
  rw [hzero] at this
  exact absurd this (Nat.succ_ne_zero _).symm

/-- With 1 ≤ DUTY ≤ TOP the output is high from DUTY to TOP (R113). -/
theorem out_iterate_ticked (h : s.cfgDone = true) (hle : s.tcnt.toNat ≤ s.topReg.toNat)
    (hduty : 1 ≤ s.dutyReg.toNat)
    (hstart : (s.out = true ↔ s.dutyReg.toNat ≤ s.tcnt.toNat) ∨
      s.topReg.toNat + 1 ≤ s.tcnt.toNat + n) :
    (State.ticked^[n] s).out = true ↔
      s.dutyReg.toNat ≤ (s.tcnt.toNat + n) % (s.topReg.toNat + 1) := by
  rw [← tcnt_iterate_ticked_eq_mod h hle]
  refine iterate_ticked_induction (P := fun c out => out = true ↔ s.dutyReg.toNat ≤ c.toNat) h hle
    (fun out => ?_) (fun c out hlt hc => ?_) hstart
  · have hne : s.dutyReg ≠ 0 := fun hzero => by simp [hzero] at hduty
    have hlow : ¬ s.dutyReg.toNat ≤ (0 : Half).toNat := not_le.mpr hduty
    rw [nextOut_bottom, if_neg hne]
    simp only [hlow, Bool.false_eq_true]
  · have hsucc := toNat_add_one_of_lt hlt
    have hne := add_one_ne_zero_of_lt hlt
    by_cases hmatch : c + 1 = s.dutyReg
    · rw [← hmatch, nextOut_match hne]
      simp only [le_refl]
    · have : (c + 1).toNat ≠ s.dutyReg.toNat := mt BitVec.eq_of_toNat_eq hmatch
      rw [nextOut_of_ne hne hmatch, hc]
      omega

/-- Where no match lies between two bottoms, the output keeps the level of the bottom (R113). -/
theorem out_iterate_ticked_of_no_match (h : s.cfgDone = true)
    (hle : s.tcnt.toNat ≤ s.topReg.toNat)
    (hduty : s.dutyReg.toNat = 0 ∨ s.topReg.toNat < s.dutyReg.toNat)
    (hpast : s.topReg.toNat + 1 ≤ s.tcnt.toNat + n) :
    (State.ticked^[n] s).out = if s.dutyReg = 0 then coincideLevel s.params.coincide else false := by
  refine iterate_ticked_induction
    (P := fun _ out => out = if s.dutyReg = 0 then coincideLevel s.params.coincide else false) h hle
    (fun out => nextOut_bottom) (fun c out hlt hc => ?_) (.inr hpast)
  have hsucc := toNat_add_one_of_lt hlt
  have hmatch : c + 1 ≠ s.dutyReg := fun heq => by
    have := congrArg BitVec.toNat heq
    omega
  rw [nextOut_of_ne (add_one_ne_zero_of_lt hlt) hmatch, hc]

/-- Settles O37: the steps are ticks, and the output of the ticks is that of DUTY's range. -/
theorem outputIsHighFromDutyToTop : Obligations.OutputIsHighFromDutyToTop := by
  intro n s rest hw hc hp hle
  refine ⟨_, runSteps_ticks hw hp, fun hduty _ hstart => out_iterate_ticked hc hle hduty hstart,
    fun hduty hpast => ?_, fun hduty hpast => ?_⟩
  · have hne : s.dutyReg ≠ 0 := fun hzero => by simp [hzero] at hduty
    rw [State.advanced_out, out_iterate_ticked_of_no_match hc hle (.inr hduty) hpast, if_neg hne]
  · have hzero : s.dutyReg = 0 := BitVec.eq_of_toNat_eq hduty
    rw [State.advanced_out, out_iterate_ticked_of_no_match hc hle (.inl hduty) hpast, if_pos hzero,
      coincideLevel_eq_true]

/-! ### One period -/

/-- Of the counts `1, …, T, 0` of one period, `T - d + 1` are at least `d`. -/
theorem length_filter_high {d T : Nat} (hd : 1 ≤ d) (hdT : d ≤ T) :
    ((List.range (T + 1)).filter fun k => decide (d ≤ (k + 1) % (T + 1))).length = T - d + 1 := by
  obtain ⟨e, rfl⟩ := Nat.exists_eq_add_of_le' hd
  obtain ⟨m, rfl⟩ := Nat.exists_eq_add_of_le (Nat.le_of_succ_le hdT)
  have hbottom : decide (e + 1 ≤ (e + m + 1) % (e + m + 1)) = false := by simp
  have hup : (List.range (e + m)).filter (fun k => decide (e + 1 ≤ (k + 1) % (e + m + 1))) =
      (List.range (e + m)).filter fun k => decide (e ≤ k) := by
    refine List.filter_congr fun k hk => ?_
    rw [Nat.mod_eq_of_lt (by simpa using hk)]
    simp
  have hlow : (List.range e).filter (fun k => decide (e ≤ k)) = [] := by
    simp [List.filter_eq_nil_iff]
  rw [List.range_succ, List.filter_append, hup, List.filter_singleton, hbottom, List.range_add,
    List.filter_append, hlow]
  simp only [List.filter_map, Function.comp_def, le_add_iff_nonneg_right, zero_le, decide_true,
    List.filter_true, List.nil_append, cond_false, List.append_nil, List.length_map,
    List.length_range]
  omega

/-- Settles O38: every part of the period from its start is a run of ticks, whose output is high from
DUTY to TOP. -/
theorem highTicksPerPeriod : Obligations.HighTicksPerPeriod := by
  intro s rest hw hc hcount hout hduty hdutyTop hp
  have hrun : ∀ k, k ≤ s.topReg.toNat → ∃ later,
      runSteps (k + 1) s = .next ((State.ticked^[k + 1] s).advanced later) := by
    intro k hk
    refine ⟨List.replicate (s.topReg.toNat - k) .tick ++ rest, runSteps_ticks hw ?_⟩
    rw [hp, ← List.append_assoc, List.replicate_append_replicate]
    congr 2
    omega
  have hlevel : ∀ k ∈ List.range (s.topReg.toNat + 1),
      outAfter (k + 1) s = decide (s.dutyReg.toNat ≤ (k + 1) % (s.topReg.toNat + 1)) := by
    intro k hk
    obtain ⟨later, hk⟩ := hrun k (by simpa [Nat.lt_succ_iff] using hk)
    have hzero : s.tcnt.toNat = 0 := by rw [hcount]; rfl
    have hhigh := out_iterate_ticked (n := k + 1) hc (by omega) hduty
      (.inl (by rw [hout]; simp only [Bool.false_eq_true, false_iff]; omega))
    rw [hzero, Nat.zero_add] at hhigh
    rw [outAfter, hk, Bool.eq_iff_iff, decide_eq_true_iff]
    exact hhigh
  refine ⟨fun k hk => let ⟨_, h⟩ := hrun k hk; ⟨_, h⟩, ?_⟩
  rw [List.filter_congr hlevel, length_filter_high hduty hdutyTop]

end Sys2Proof.Machine
end

section
/-! SUPPORT. The invariant of every run (spec/10_state.md, spec/41_configurator.md R76, R84,
spec/70_reset_and_hazards.md R118): it holds at reset, and each thing a step can do keeps it. Then the
obligations about it. -/

namespace Sys2Proof.Machine

variable {s : State} {p : Params} {r : CtrlReg} {w : Word} {i : Nat}

/-! ### Reset -/

@[simp] theorem resetWith_ctrl (p : Params) (r : CtrlReg) :
    (State.resetWith p).ctrl r = initCtrl p r := by
  cases r <;> rfl

theorem initCtrl_lt (h : p.WellFormed) (r : CtrlReg) : (initCtrl p r).toNat < 2 ^ p.ctrlW := by
  obtain ⟨-, -, -, -, -, -, -, ha, hb⟩ := h
  cases r <;> assumption

/-- Reset leaves an unconfigured block at TIMER_INIT with a clear latch (R117, R118). -/
theorem inv_resetWith (h : p.WellFormed) : (State.resetWith p).Inv where
  wellFormed := h
  width r := by
    rw [resetWith_ctrl]
    exact initCtrl_lt h r
  latch := iff_of_true rfl rfl
  pin := rfl
  unconfigured _ := ⟨rfl, resetWith_ctrl p, rfl, rfl, rfl, rfl⟩
  configured hc := nomatch hc
  duty hc := nomatch hc
  result := .inl (Nat.two_pow_pos 16)

/-! ### What leaves the invariant's fields alone -/

/-- FREQ, SYSCLK, RANGE, the events to come and the bus answer are in no clause of the invariant. -/
theorem State.Inv.of_bus (h : s.Inv) (freq sysclk : Word) (range : Bool) (pending : List Event)
    (busReply : BusReply) :
    State.Inv { s with
      freq := freq, sysclk := sysclk, range := range, pending := pending, busReply := busReply } :=
  ⟨h.wellFormed, h.width, h.latch, h.pin, h.unconfigured, h.configured, h.duty, h.result⟩

/-- A fault with a code enters the latch whole (R95). -/
theorem State.Inv.setLatch (h : s.Inv) {c : FaultCode} (hc : c ≠ .none) : (s.setLatch c).Inv :=
  ⟨h.wellFormed, h.width, iff_of_false hc nofun, h.pin, h.unconfigured, h.configured, h.duty,
    h.result⟩

theorem State.Inv.setResult (h : s.Inv) (hw : w.toNat < 2 ^ 16 ∨ w.toNat < 2 ^ s.params.csW) :
    (s.setResult w).Inv :=
  ⟨h.wellFormed, h.width, h.latch, h.pin, h.unconfigured, h.configured, h.duty, hw⟩

/-! ### The timer of a configured block -/

/-- Once CFG is accepted the invariant leaves TOP_REG, TCNT and OUT free, and DUTY_REG below half of
the range (R80, R111). -/
theorem State.Inv.of_timer (h : s.Inv) (hc : s.cfgDone = true) (top : Half) {duty : Half}
    (hduty : duty.toNat < 2 ^ 15) (tcnt : Half) (out : Bool) :
    State.Inv { s with topReg := top, dutyReg := duty, tcnt := tcnt, out := out } :=
  ⟨h.wellFormed, h.width, h.latch, h.pin, fun hu => (nomatch hc.symm.trans hu),
    h.configured, fun _ => hduty, h.result⟩

theorem halved_lt (v : Half) : (halved v).toNat < 2 ^ 15 := by
  have := v.isLt
  rw [halved, BitVec.toNat_ushiftRight, Nat.shiftRight_eq_div_pow]
  omega

/-! ### An accepted CFG -/

/-- The mask covers no bit at or above CTRL_W (R8, R9). -/
theorem fieldMask_bit_lt (h : p.WellFormed) (hi : i < 32)
    (hbit : (fieldMask p r).getLsbD i = true) : i < p.ctrlW := by
  obtain ⟨q, hq, -, -, hlt⟩ := (fieldMask_bit h .direct hi).mp hbit
  exact hlt.trans_le (piecesFor_fits h hq).1

/-- An accepted CFG keeps a control register inside CTRL_W bits (R28, R76). -/
theorem configured_ctrl_lt (h : s.params.WellFormed) (hs : (s.ctrl r).toNat < 2 ^ s.params.ctrlW)
    (m : PrescaleMode) (v : Half) :
    ((s.configured m v).ctrl r).toNat < 2 ^ s.params.ctrlW := by
  refine Nat.lt_pow_two_of_testBit _ fun i hi => Bool.eq_false_iff.mpr fun hbit => ?_
  have h32 : i < 32 := BitVec.lt_of_getLsbD hbit
  rw [← BitVec.getLsbD, configured_ctrl_bit v h32] at hbit
  split at hbit
  · next hmask => exact absurd (fieldMask_bit_lt h h32 hmask) (not_lt.mpr hi)
  · exact absurd (bit_lt_of_fits hs hbit) (not_lt.mpr hi)

/-- An accepted CFG takes the registers from TIMER_INIT to the pieces of its mode (R75, R76). -/
theorem State.Inv.of_configured (h : s.Inv) (hc : s.cfgDone = false) (m : PrescaleMode) (v : Half) :
    (s.configured m v).Inv where
  wellFormed := h.wellFormed
  width r := configured_ctrl_lt h.wellFormed (h.width r) m v
  latch := h.latch
  pin := rfl
  unconfigured hu := nomatch hu
  configured _ r i hi := by
    obtain ⟨-, hinit, -⟩ := h.unconfigured hc
    rw [configured_ctrl_bit v hi, hinit r]
    rfl
  duty _ := halved_lt v
  result := h.result

/-! ### Commands and steps -/

theorem State.Inv.afterCommand (h : s.Inv) (i : Instr) : (afterCommand i s).Inv := by
  obtain ⟨_, he⟩ | ⟨_, _, _, he⟩ | ⟨_, _, _, he⟩ | ⟨m, v, _, hc, _, he⟩ | ⟨v, _, hc, _, he⟩ |
    ⟨v, _, hc, _, he⟩ | ⟨m, n, _, _, htop, he⟩ | ⟨m, _, _, _, he⟩ | ⟨m, _, _, he⟩ |
    ⟨m, _, _, he⟩ := afterCommand_cases i s <;> rw [he]
  · exact h
  · exact h.setLatch nofun
  · exact h.setLatch nofun
  · exact h.of_configured hc m v
  · exact h.of_timer hc v (h.duty hc) s.tcnt s.out
  · exact h.of_timer hc s.topReg (halved_lt v) s.tcnt s.out
  · have hn := topFor_lt htop
    have hresult : (BitVec.ofNat 32 n).toNat < 2 ^ 16 := by
      rw [BitVec.toNat_ofNat]
      omega
    exact (h.setResult (.inl hresult)).of_bus s.freq s.sysclk false s.pending s.busReply
  · exact h.of_bus s.freq s.sysclk true s.pending s.busReply
  · have hd := divisor_lt m
    refine h.setResult (.inl ?_)
    rw [BitVec.toNat_ofNat]
    omega
  · exact h.setResult (.inr (csCode_fits h.wellFormed m))

theorem State.Inv.afterStep (h : s.Inv) : (afterStep s).Inv := by
  have hbus (rest : List Event) (reply : BusReply) : (s.answered rest reply).Inv :=
    h.of_bus s.freq s.sysclk s.range rest reply
  obtain ⟨-, he⟩ | ⟨rest, -, he⟩ | ⟨rest, -, -, he⟩ | ⟨rest, -, hc, he⟩ |
    ⟨_, rest, reply, -, -, -, he⟩ | ⟨_, rest, reply, -, -, -, he⟩ | ⟨rest, v, -, he⟩ |
    ⟨rest, v, -, he⟩ | ⟨rest, _, -, -, -, he⟩ | ⟨rest, _, i, -, -, -, he⟩ :=
    afterStep_cases s <;> rw [he]
  · exact h
  · exact (inv_resetWith h.wellFormed).of_bus 0 0 false rest .none
  · exact hbus rest s.busReply
  · exact (hbus rest s.busReply).of_timer hc s.topReg (h.duty hc) _ _
  · exact hbus rest reply
  · exact (hbus rest reply).setLatch (c := .busError) nofun
  · exact h.of_bus v s.sysclk s.range rest .written
  · exact h.of_bus s.freq v s.range rest .written
  · exact (hbus rest .written).setLatch (c := .illegalCmd) nofun
  · exact (hbus rest .written).afterCommand i

/-! ### The obligations -/

/-- Settles O41: reset meets each clause, and State.reset is the reset of a well-formed profile. -/
theorem invariantHoldsAtReset : Obligations.InvariantHoldsAtReset :=
  ⟨fun _ => inv_resetWith, inv_resetWith (by decide)⟩

/-- Settles O42: a step that answers is one of the things a step can do, each of which keeps the
invariant. -/
theorem invariantIsKeptByEveryStep : Obligations.InvariantIsKeptByEveryStep := by
  intro s t h hs
  obtain ⟨-, rfl⟩ := step_next hs
  exact h.afterStep

/-- Settles O39: a pin that shows a level is driven, and the invariant ties PIN_DRIVEN to CFG_DONE. -/
theorem pinIsDrivenOnlyWhileTheCounterRuns : Obligations.PinIsDrivenOnlyWhileTheCounterRuns := by
  refine fun s => ⟨fun h => if_pos h, fun h => if_neg (Bool.eq_false_iff.mp h),
    fun hinv level hlevel => ?_⟩
  rw [← hinv.pin]
  by_contra hundriven
  rw [pinLevel, if_neg hundriven] at hlevel
  cases hlevel

end Sys2Proof.Machine
end

section
/-! SUPPORT. Runs and their events, and what lasts until a reset (spec/10_state.md R22 to R26;
spec/41_configurator.md R84; spec/70_reset_and_hazards.md R116). Then the obligations about both. -/

namespace Sys2Proof.Machine

variable {s t u : State} {n : Nat}

/-! ### The events still to come -/

@[simp] theorem afterCommand_pending (i : Instr) (s : State) :
    (afterCommand i s).pending = s.pending := by
  obtain ⟨_, h⟩ | ⟨_, _, _, h⟩ | ⟨_, _, _, h⟩ | ⟨_, _, _, _, _, h⟩ | ⟨_, _, _, _, h⟩ |
    ⟨_, _, _, _, h⟩ | ⟨_, _, _, _, _, h⟩ | ⟨_, _, _, _, h⟩ | ⟨_, _, _, h⟩ | ⟨_, _, _, h⟩ :=
    afterCommand_cases i s <;> simp [h]

/-- A step takes the first event (R48). -/
@[simp] theorem afterStep_pending (s : State) : (afterStep s).pending = s.pending.tail := by
  obtain ⟨hp, h⟩ | ⟨_, hp, h⟩ | ⟨_, hp, _, h⟩ | ⟨_, hp, _, h⟩ | ⟨_, _, _, hp, _, _, h⟩ |
    ⟨_, _, _, hp, _, _, h⟩ | ⟨_, _, hp, h⟩ | ⟨_, _, hp, h⟩ | ⟨_, _, hp, _, _, h⟩ |
    ⟨_, _, _, hp, _, _, h⟩ := afterStep_cases s <;> simp [h, hp]

/-- A run takes its events in order. -/
theorem afterSteps_pending (n : Nat) (s : State) :
    (afterSteps n s).pending = s.pending.drop n := by
  induction n with
  | zero => rfl
  | succ n ih => rw [afterSteps_succ, afterStep_pending, ih, List.tail_drop]

/-- A run that answers a state took no step or ran under a well-formed configuration. -/
theorem runSteps_next (h : runSteps n s = .next t) : t = afterSteps n s := by
  cases n with
  | zero => exact (Host.Outcome.next.inj h).symm
  | succ n =>
    by_cases hw : s.params.WellFormed
    · rw [runSteps_eq _ s hw] at h
      exact (Host.Outcome.next.inj h).symm
    · rw [runSteps_refused n hw] at h
      cases h

/-! ### What lasts until a reset -/

/-- What no event but a reset takes back: a latched fault, a driven pin, an accepted CFG. -/
structure LastsTo (s t : State) : Prop where
  latch : s.fault = true → t.fault = true ∧ t.fcode = s.fcode
  pin : s.pinDriven = true → t.pinDriven = true
  config : s.cfgDone = true → t.cfgDone = true ∧ t.activeMode = s.activeMode ∧
    t.ctrlA = s.ctrlA ∧ t.ctrlB = s.ctrlB

theorem LastsTo.trans (h : LastsTo s t) (h' : LastsTo t u) : LastsTo s u where
  latch hf := by
    obtain ⟨hf', hcode⟩ := h.latch hf
    exact (h'.latch hf').imp_right (·.trans hcode)
  pin hp := h'.pin (h.pin hp)
  config hc := by
    obtain ⟨hc', hmode, ha, hb⟩ := h.config hc
    obtain ⟨hc'', hmode', ha', hb'⟩ := h'.config hc'
    exact ⟨hc'', hmode'.trans hmode, ha'.trans ha, hb'.trans hb⟩

/-- Where PIN_DRIVEN and the configuration are untouched, only the latch is left to look at. -/
theorem LastsTo.of_latch (hlatch : s.fault = true → t.fault = true ∧ t.fcode = s.fcode)
    (hpin : t.pinDriven = s.pinDriven) (hdone : t.cfgDone = s.cfgDone)
    (hmode : t.activeMode = s.activeMode) (ha : t.ctrlA = s.ctrlA) (hb : t.ctrlB = s.ctrlB) :
    LastsTo s t :=
  ⟨hlatch, hpin.trans, fun hc => ⟨hdone.trans hc, hmode, ha, hb⟩⟩

/-- Nothing that lasts is touched where none of its registers is. -/
theorem LastsTo.of_frame (hfault : t.fault = s.fault) (hcode : t.fcode = s.fcode)
    (hpin : t.pinDriven = s.pinDriven) (hdone : t.cfgDone = s.cfgDone)
    (hmode : t.activeMode = s.activeMode) (ha : t.ctrlA = s.ctrlA) (hb : t.ctrlB = s.ctrlB) :
    LastsTo s t :=
  .of_latch (fun hf => ⟨hfault.trans hf, hcode⟩) hpin hdone hmode ha hb

theorem lastsTo_answered (s : State) (rest : List Event) (r : BusReply) :
    LastsTo s (s.answered rest r) :=
  .of_frame rfl rfl rfl rfl rfl rfl rfl

/-- A fault enters only a clear latch, where there is none to last. -/
theorem lastsTo_setLatch (c : FaultCode) (hf : s.fault = false) : LastsTo s (s.setLatch c) :=
  .of_latch (fun hf' => nomatch hf.symm.trans hf') rfl rfl rfl rfl rfl

/-- An accepted CFG starts from CFG_DONE = 0, where there is no configuration to last. -/
theorem lastsTo_configured (m : PrescaleMode) (v : Half) (hc : s.cfgDone = false) :
    LastsTo s (s.configured m v) :=
  ⟨fun hf => ⟨hf, rfl⟩, fun _ => rfl, fun hc' => nomatch hc.symm.trans hc'⟩

theorem lastsTo_afterCommand (i : Instr) (s : State) : LastsTo s (afterCommand i s) := by
  obtain ⟨_, h⟩ | ⟨hf, _, _, h⟩ | ⟨hf, _, _, h⟩ | ⟨m, v, _, hc, _, h⟩ | ⟨_, _, _, _, h⟩ |
    ⟨_, _, _, _, h⟩ | ⟨_, _, _, _, _, h⟩ | ⟨_, _, _, _, h⟩ | ⟨_, _, _, h⟩ | ⟨_, _, _, h⟩ :=
    afterCommand_cases i s <;> rw [h]
  · exact .of_frame rfl rfl rfl rfl rfl rfl rfl
  · exact lastsTo_setLatch _ hf
  · exact lastsTo_setLatch _ hf
  · exact lastsTo_configured m v hc
  all_goals exact .of_frame rfl rfl rfl rfl rfl rfl rfl

theorem lastsTo_afterStep (hreset : ∀ rest, s.pending ≠ .reset :: rest) :
    LastsTo s (afterStep s) := by
  obtain ⟨_, h⟩ | ⟨rest, hp, _⟩ | ⟨_, _, _, h⟩ | ⟨_, _, _, h⟩ | ⟨_, _, _, _, _, _, h⟩ |
    ⟨_, rest, r, _, _, hf, h⟩ | ⟨_, _, _, h⟩ | ⟨_, _, _, h⟩ | ⟨rest, _, _, hf, _, h⟩ |
    ⟨rest, _, i, _, _, _, h⟩ := afterStep_cases s
  · exact h.symm ▸ .of_frame rfl rfl rfl rfl rfl rfl rfl
  · exact absurd hp (hreset rest)
  all_goals rw [h]
  · exact .of_frame rfl rfl rfl rfl rfl rfl rfl
  · exact .of_frame rfl rfl rfl rfl rfl rfl rfl
  · exact .of_frame rfl rfl rfl rfl rfl rfl rfl
  · exact (lastsTo_answered s rest r).trans (lastsTo_setLatch (s := s.answered rest r) .busError hf)
  · exact .of_frame rfl rfl rfl rfl rfl rfl rfl
  · exact .of_frame rfl rfl rfl rfl rfl rfl rfl
  · exact (lastsTo_answered s rest .written).trans
      (lastsTo_setLatch (s := s.answered rest .written) .illegalCmd hf)
  · exact (lastsTo_answered s rest .written).trans (lastsTo_afterCommand i _)

theorem lastsTo_afterSteps (n : Nat) (h : ∀ e ∈ s.pending, e.isNotReset = true) :
    LastsTo s (afterSteps n s) := by
  induction n with
  | zero => exact .of_frame rfl rfl rfl rfl rfl rfl rfl
  | succ n ih =>
    rw [afterSteps_succ]
    refine ih.trans (lastsTo_afterStep fun rest hp => ?_)
    rw [afterSteps_pending] at hp
    have hreset : Event.reset ∈ s.pending :=
      List.mem_of_mem_drop (i := n) (hp ▸ List.mem_cons_self)
    exact nomatch h _ hreset

/-- Settles O43: each step but a reset keeps what lasts, and no event of the run is a reset. -/
theorem latchAndConfigurationLastUntilReset : Obligations.LatchAndConfigurationLastUntilReset := by
  intro n s t hpending hrun
  obtain rfl := runSteps_next hrun
  obtain ⟨hlatch, hpin, hconfig⟩ := lastsTo_afterSteps n hpending
  exact ⟨hlatch, hpin, hconfig⟩

/-! ### Who writes each register -/

/-- Settles O44: each thing a step can do changes only registers that name it as a writer; a command's
effects are read off the things a command can do. -/
theorem registersChangeOnlyByTheirWriters : Obligations.RegistersChangeOnlyByTheirWriters := by
  intro s t hs hreset
  obtain ⟨-, rfl⟩ := step_next hs
  obtain ⟨-, h⟩ | ⟨rest, hp, -⟩ | ⟨_, -, -, h⟩ | ⟨rest, hp, hc, h⟩ | ⟨_, _, _, -, -, -, h⟩ |
    ⟨e, rest, r, hp, hbad, hf, h⟩ | ⟨rest, v, hp, h⟩ | ⟨rest, v, hp, h⟩ | ⟨rest, w, hp, hf, hd, h⟩ |
    ⟨rest, w, i, hp, hf, hd, h⟩ := afterStep_cases s
  · simp [h]
  · exact absurd (by rw [hp, List.tail_cons]) hreset
  · simp [h]
  · simp [h, hp, hc]
  · simp [h]
  · simp [h, hp, hbad, hf]
  · simp [h, hp]
  · simp [h, hp]
  · simp [h, hp, hd, hf]
  · obtain ⟨-, he⟩ | ⟨-, hc, ⟨m, v, rfl⟩, he⟩ | ⟨-, hc, ⟨v, hi⟩, he⟩ | ⟨m, v, -, -, rfl, he⟩ |
      ⟨v, -, -, rfl, he⟩ | ⟨v, -, -, rfl, he⟩ | ⟨m, n, -, rfl, -, he⟩ | ⟨m, -, rfl, -, he⟩ |
      ⟨m, -, rfl, he⟩ | ⟨m, -, rfl, he⟩ := afterCommand_cases i (s.answered rest .written) <;>
      rw [he] at h
    · simp [h]
    · rw [State.answered_cfgDone] at hc
      simp [h, hp, hd, hf, hc]
    · rw [State.answered_cfgDone] at hc
      rcases hi with rfl | rfl <;> simp [h, hp, hd, hf, hc]
    · simp [h, hp, hd, halved]
    · simp [h, hp, hd]
    · simp [h, hp, hd, halved]
    · simp [h, hp, hd]
    · simp [h, hp, hd]
    · simp [h, hp, hd]
    · simp [h, hp, hd]

end Sys2Proof.Machine
end

section
/-! SUPPORT. What the block and the host cannot see (spec/20_memory.md R49; spec/60_exceptions.md R115;
spec/10_state.md R31, R32): a map that forgets state no event reads is carried through every event.
Then the obligations about ticks and about the timer register image, one map each. -/

namespace Sys2Proof.Machine

variable {π f : State → State} {s u : State}

theorem Event.eq_tick {e : Event} (h : e.isNotTick = false) : e = .tick := by
  cases e with
  | tick => rfl
  | read _ _ => cases h
  | write _ _ => cases h
  | reset => cases h

/-! ### Maps that forget state -/

/-- What `π` forgets does not reach what `f` leaves, but for what `π` forgets again. -/
def Respects (π f : State → State) : Prop := ∀ s, π (f s) = π (f (π s))

theorem Respects.ite {g : State → State} {b : State → Bool} (hb : ∀ s, b (π s) = b s)
    (hf : Respects π f) (hg : Respects π g) : Respects π fun s => if b s then f s else g s := by
  intro s
  cases hs : b s <;> simp only [hb, hs, if_true, if_false, Bool.false_eq_true]
  · exact hg s
  · exact hf s

theorem Respects.congr (hf : Respects π f) (h : π s = π u) : π (f s) = π (f u) := by
  rw [hf s, h, ← hf u]

/-- `π` forgets only state that no check and no host read looks at, among it the events to come, TCNT
and OUT, and each single write respects it. -/
structure Hides (π : State → State) : Prop where
  again : Respects π id
  fault (s : State) : (π s).fault = s.fault
  cfgDone (s : State) : (π s).cfgDone = s.cfgDone
  params (s : State) : (π s).params = s.params
  view (s : State) : (π s).hostView = s.hostView
  pending (s : State) (rest : List Event) : π (s.advanced rest) = π s
  count (s : State) (t : Half) (o : Bool) : π (s.setCount t o) = π s
  answered (rest : List Event) (r : BusReply) : Respects π fun s => s.answered rest r
  setLatch (c : FaultCode) : Respects π fun s => s.setLatch c
  setResult (v : Word) : Respects π fun s => s.setResult v
  setRange (b : Bool) : Respects π fun s => s.setRange b
  setFreq (v : Word) : Respects π fun s => s.setFreq v
  setSysclk (v : Word) : Respects π fun s => s.setSysclk v
  setTop (v : Half) : Respects π fun s => s.setTop v
  setDuty (v : Half) : Respects π fun s => s.setDuty v
  configured (m : PrescaleMode) (v : Half) : Respects π fun s => s.configured m v

/-- What `π` does not change is the same in two states that differ only in what `π` forgets. -/
theorem apply_eq_of_hidden {α : Type} {g : State → α} (hg : ∀ s, g (π s) = g s) (hs : π s = π u) :
    g s = g u := by
  rw [← hg s, hs, hg u]

section
variable (h : Hides π)
include h

theorem Hides.readReg_eq (s : State) (r : HostReg) : readReg (π s) r = readReg s r := by
  cases r with
  | cmd => rfl
  | status => exact congrArg HostView.status (h.view s)
  | freq => exact congrArg HostView.freq (h.view s)
  | sysclk => exact congrArg HostView.sysclk (h.view s)
  | result => exact congrArg HostView.result (h.view s)

/-! ### Commands -/

theorem Hides.respects_raise (c : FaultCode) : Respects π fun s => s.raise c :=
  .ite h.fault h.again (h.setLatch c)

theorem Hides.respects_translated (m : PrescaleMode) : Respects π fun s => s.translated m := by
  intro s
  have hfreq : (π s).freq = s.freq := h.readReg_eq s .freq
  have hsysclk : (π s).sysclk = s.sysclk := h.readReg_eq s .sysclk
  simp only [State.translated, hfreq, hsysclk]
  cases topFor s.freq s.sysclk m with
  | none => exact h.setRange true s
  | some t => exact (h.setRange false).congr (h.setResult _ s)

theorem Hides.respects_afterCommand (i : Instr) : Respects π (afterCommand i) := by
  cases i with
  | cfg m v => exact .ite h.fault h.again (.ite h.cfgDone (h.respects_raise _) (h.configured m v))
  | setTop v => exact .ite h.fault h.again (.ite h.cfgDone (h.setTop v) (h.respects_raise _))
  | setDuty v => exact .ite h.fault h.again (.ite h.cfgDone (h.setDuty _) (h.respects_raise _))
  | calcTop m => exact .ite h.fault h.again (h.respects_translated m)
  | div m => exact .ite h.fault h.again (h.setResult _)
  | enc m =>
    refine .ite h.fault h.again fun s => ?_
    rw [h.params]
    exact h.setResult _ s

/-! ### Events -/

theorem Hides.respects_afterDeliver (w : Word) : Respects π fun s => afterDeliver s w := by
  refine .ite h.fault h.again ?_
  cases decode w with
  | command i => exact h.respects_afterCommand i
  | illegal _ => exact h.setLatch _

theorem Hides.respects_afterWriteReg (r : HostReg) (v : Word) :
    Respects π fun s => afterWriteReg s r v := by
  cases r with
  | cmd => exact h.respects_afterDeliver v
  | status => exact h.respects_raise _
  | freq => exact h.setFreq v
  | sysclk => exact h.setSysclk v
  | result => exact h.respects_raise _

theorem Hides.answered_congr (hs : π s = π u) (rest rest' : List Event) (r : BusReply) :
    π (s.answered rest r) = π (u.answered rest' r) := by
  rw [(h.answered rest r).congr hs]
  exact (h.pending (u.answered rest r) rest').symm

theorem Hides.busRead_congr (hs : π s = π u) (size : BusSize) (addr : Nat)
    (rest rest' : List Event) :
    π (busRead s size addr rest) = π (busRead u size addr rest') := by
  simp only [busRead, apply_eq_of_hidden h.params hs]
  cases offsetIn u.params addr with
  | none => exact h.answered_congr hs _ _ _
  | some off =>
    cases ht : readTarget size off <;> simp only [ht]
    case none => exact (h.respects_raise _).congr (h.answered_congr hs _ _ _)
    case some r =>
      have hread := apply_eq_of_hidden (g := (readReg · r)) (h.readReg_eq · r) hs
      rw [hread]
      exact h.answered_congr hs _ _ _

theorem Hides.afterWrite_congr (hs : π s = π u) (addr : Nat) (data : BusData)
    (rest rest' : List Event) :
    π (afterWrite s addr data rest) = π (afterWrite u addr data rest') := by
  simp only [afterWrite, apply_eq_of_hidden h.params hs]
  cases offsetIn u.params addr with
  | none => exact h.answered_congr hs _ _ _
  | some off =>
    cases ht : writeTarget off data <;> simp only [ht]
    case none => exact (h.respects_raise _).congr (h.answered_congr hs _ _ _)
    case some rv => exact (h.respects_afterWriteReg rv.1 rv.2).congr (h.answered_congr hs _ _ _)

/-- A tick is hidden whole. -/
theorem Hides.tick (s : State) (rest : List Event) : π (s.ticked.advanced rest) = π s := by
  rw [h.pending, ticked_eq_setCount, h.count]

/-- An event, whatever comes after it, leaves two states that differ only in what `π` forgets if they
did before. -/
theorem Hides.afterEvent_congr (hs : π s = π u) (e : Event) (rest rest' : List Event) :
    π (afterEvent s e rest) = π (afterEvent u e rest') := by
  cases e with
  | read size addr => exact h.busRead_congr hs size addr rest rest'
  | write addr data => exact h.afterWrite_congr hs addr data rest rest'
  | tick => exact (h.tick s rest).trans (hs.trans (h.tick u rest').symm)
  | reset =>
    simp only [afterEvent, resetNow, apply_eq_of_hidden h.params hs]
    rw [h.pending, h.pending]

/-! ### Runs -/

theorem Hides.afterSteps_congr (n : Nat) (hs : π s = π u) (hp : s.pending = u.pending) :
    π (afterSteps n s) = π (afterSteps n u) := by
  induction n generalizing s u with
  | zero => exact hs
  | succ n ih =>
    refine ih ?_ (by rw [afterStep_pending, afterStep_pending, hp])
    simp only [afterStep, hp]
    cases u.pending with
    | nil => exact hs
    | cons e rest => exact h.afterEvent_congr hs e rest rest

/-- A run ends as the run of its events without the ticks does, but for what `π` forgets. -/
theorem Hides.afterSteps_withoutTicks {es : List Event} (hs : π s = π u) (hp : s.pending = es)
    (hp' : u.pending = es.filter Event.isNotTick) :
    π (afterSteps es.length s) = π (afterSteps (es.filter Event.isNotTick).length u) := by
  induction es generalizing s u with
  | nil => exact hs
  | cons e es ih =>
    have hstep : afterStep s = afterEvent s e es := by simp only [afterStep, hp]
    have hrest : (afterStep s).pending = es := by rw [afterStep_pending, hp, List.tail_cons]
    rw [List.length_cons, afterSteps]
    cases htick : e.isNotTick with
    | false =>
      obtain rfl : e = .tick := Event.eq_tick htick
      rw [List.filter_cons_of_neg (by simp [htick])] at hp' ⊢
      exact ih (by rw [hstep, afterEvent, h.tick, hs]) hrest hp'
    | true =>
      rw [List.filter_cons_of_pos htick] at hp' ⊢
      have hstep' : afterStep u = afterEvent u e (es.filter Event.isNotTick) := by
        simp only [afterStep, hp']
      rw [List.length_cons, afterSteps]
      refine ih ?_ hrest (by rw [afterStep_pending, hp', List.tail_cons])
      rw [hstep, hstep']
      exact h.afterEvent_congr hs e _ _

end

/-! ### The two maps -/

/-- Forgets TCNT, OUT and the events still to come. -/
def State.hideCount (s : State) : State := { s with tcnt := 0, out := false, pending := [] }

/-- Forgets the timer register image too (R32). -/
def State.hideTimer (s : State) : State :=
  { s.hideCount with ctrlA := 0, ctrlB := 0, topReg := 0, dutyReg := 0 }

theorem hides_hideCount : Hides State.hideCount :=
  ⟨fun _ => rfl, fun _ => rfl, fun _ => rfl, fun _ => rfl, fun _ => rfl, fun _ _ => rfl,
    fun _ _ _ => rfl, fun _ _ _ => rfl, fun _ _ => rfl, fun _ _ => rfl, fun _ _ => rfl,
    fun _ _ => rfl, fun _ _ => rfl, fun _ _ => rfl, fun _ _ => rfl, fun _ _ _ => rfl⟩

theorem hides_hideTimer : Hides State.hideTimer :=
  ⟨fun _ => rfl, fun _ => rfl, fun _ => rfl, fun _ => rfl, fun _ => rfl, fun _ _ => rfl,
    fun _ _ _ => rfl, fun _ _ _ => rfl, fun _ _ => rfl, fun _ _ => rfl, fun _ _ => rfl,
    fun _ _ => rfl, fun _ _ => rfl, fun _ _ => rfl, fun _ _ => rfl, fun _ _ _ => rfl⟩

/-! ### The obligations -/

/-- Settles O45: TCNT and OUT are hidden from every event, and both runs use up their events. -/
theorem ticksChangeNothingButCountAndOutput : Obligations.TicksChangeNothingButCountAndOutput := by
  intro s hw
  have hhidden := hides_hideCount.afterSteps_withoutTicks
    (s := s) (u := { s with pending := s.pending.filter Event.isNotTick }) rfl rfl rfl
  refine ⟨_, _, runSteps_eq _ s hw, runSteps_eq _ _ hw, ?_,
    apply_eq_of_hidden hides_hideCount.view hhidden⟩
  have hpending : (afterSteps s.pending.length s).pending =
      (afterSteps (s.pending.filter Event.isNotTick).length
        { s with pending := s.pending.filter Event.isNotTick }).pending := by
    rw [afterSteps_pending, afterSteps_pending, List.drop_length, List.drop_length]
  exact congrArg₂ State.advanced hhidden hpending

/-- Settles O46: the timer image, TCNT and OUT are hidden from every event, so from every run. -/
theorem timerImageIsHiddenFromTheHost : Obligations.TimerImageIsHiddenFromTheHost := by
  intro n s a b top duty count o hw
  have hhidden := hides_hideTimer.afterSteps_congr (s := s)
    (u := { s with
      ctrlA := a, ctrlB := b, topReg := top, dutyReg := duty, tcnt := count, out := o }) n rfl rfl
  refine ⟨_, _, runSteps_eq n s hw, runSteps_eq n _ hw, ?_,
    apply_eq_of_hidden hides_hideTimer.view hhidden⟩
  exact congrArg₂ State.advanced hhidden (by rw [afterSteps_pending, afterSteps_pending])

end Sys2Proof.Machine
end

section
/-! SUPPORT. The step, the accesses that are bus errors or miss the window, STATUS and the
pseudo-instructions (spec/00_scope.md R8; spec/20_memory.md R45; spec/10_state.md R21;
spec/30_encoding.md R68, R69). Then the obligations about them. -/

namespace Sys2Proof.Machine

variable {s t : State} {rest : List Event} {size : BusSize} {addr : Nat} {data : BusData}
  {r : HostReg} {v : Word} {i : Instr} {m : PrescaleMode}

/-! ### Which steps go on -/

/-- Settles O9: the step is a plain function under a well-formed configuration and a refusal under any
other. -/
theorem stepGoesOnExactlyWhenWellFormed : Obligations.StepGoesOnExactlyWhenWellFormed :=
  fun _ => ⟨fun hw => ⟨_, step_eq hw⟩, fun hw => if_neg hw⟩

/-! ### Commands placed and issued -/

/-- A step whose next event writes a command's word to CMD runs the command (R40, R68). -/
theorem step_of_issue (hw : s.params.WellFormed) (hp : s.pending = issue s.params i :: rest) :
    step s = exec i (s.answered rest .written) := by
  rw [step_of_cmdWrite hw hp, afterDeliver_of_command _ (decode_encode i), exec_eq_after]

/-- The word placed by `withFetchWord` is a write of it to CMD, before the events to come. -/
theorem withFetchWord_encode (s : State) (i : Instr) :
    s.withFetchWord 32 (encode i).toNat =
      { s with pending := issue s.params i :: s.pending } := by
  rw [State.withFetchWord, ofNat_toNat_mod_word]
  rfl

/-- Settles O11: the placed word is the next event, a CMD write of a command. -/
theorem placedWordIsRunNext : Obligations.PlacedWordIsRunNext := by
  intro s i hw
  rw [withFetchWord_encode]
  exact step_of_issue (s := { s with pending := issue s.params i :: s.pending }) hw rfl

/-! ### Bus errors and accesses outside the window -/

theorem step_of_read_outside (hw : s.params.WellFormed) (hp : s.pending = .read size addr :: rest)
    (h : addr < s.params.blockBase ∨ s.params.blockBase + 32 ≤ addr) :
    step s = .next (s.answered rest .notReached) := by
  simp only [step_of_read hw hp, busRead, offsetIn_none h]

theorem step_of_write_outside (hw : s.params.WellFormed)
    (hp : s.pending = .write addr data :: rest)
    (h : addr < s.params.blockBase ∨ s.params.blockBase + 32 ≤ addr) :
    step s = .next (s.answered rest .notReached) := by
  simp only [step_of_write hw hp, afterWrite, offsetIn_none h]

/-- What raising a bus error after an answer leaves, by the latch (R95, R96). -/
theorem answered_raise_eq (s : State) (rest : List Event) (reply : BusReply) (c : FaultCode) :
    (s.fault = true → (s.answered rest reply).raise c = s.answered rest reply) ∧
    (s.fault = false → (s.answered rest reply).raise c = (s.answered rest reply).setLatch c) :=
  ⟨raise_of_fault (s := s.answered rest reply) c, raise_of_good (s := s.answered rest reply) c⟩

/-- Settles O14: a bus error raises BUS_ERROR after its answer, and an access outside the window is
only answered. -/
theorem busErrorsLatchAndDoNothingElse : Obligations.BusErrorsLatchAndDoNothingElse := by
  intro s addr rest hw
  refine ⟨fun size hp hlo hhi hbad => ?_, fun data hp hlo hhi hbad => ?_,
    fun hout => ⟨fun size hp => step_of_read_outside hw hp hout,
      fun data hp => step_of_write_outside hw hp hout⟩⟩
  · obtain ⟨hfault, hgood⟩ := answered_raise_eq s rest (.data 0) .busError
    rw [step_of_badRead hw hp ⟨hlo, hhi, hbad⟩]
    exact ⟨fun hf => congrArg _ (hfault hf), fun hf => congrArg _ (hgood hf)⟩
  · obtain ⟨hfault, hgood⟩ := answered_raise_eq s rest .written .busError
    rw [step_of_badWrite hw hp ⟨hlo, hhi, hbad⟩]
    exact ⟨fun hf => congrArg _ (hfault hf), fun hf => congrArg _ (hgood hf)⟩

/-! ### STATUS -/

/-- The flags of STATUS (R21). -/
theorem statusWord_flags (s : State) :
    (statusWord s).getLsbD 0 = s.cfgDone ∧ (statusWord s).getLsbD 1 = s.pinDriven ∧
      (statusWord s).getLsbD 2 = s.range ∧ (statusWord s).getLsbD 3 = s.fault := by
  simp only [statusWord, BitVec.getLsbD_append]
  simp

/-- The fields of STATUS wider than a bit (R21). -/
theorem statusWord_fields (s : State) :
    (statusWord s).extractLsb' 4 4 = s.fcode.bits ∧
      (statusWord s).extractLsb' 8 3 = s.activeMode.index ∧
      (statusWord s).extractLsb' 11 21 = 0 := by
  refine ⟨?_, ?_, ?_⟩ <;>
    (apply BitVec.eq_of_getLsbD_eq
     intro k hk
     simp only [statusWord, BitVec.getLsbD_extractLsb', BitVec.getLsbD_append]
     interval_cases k <;> rfl)

/-- Settles O15: STATUS field by field, the two fields that the invariant pins, its reset value, and
its accesses. -/
theorem statusLayout : Obligations.StatusLayout := by
  intro s
  obtain ⟨hdone, hpin, hrange, hfault⟩ := statusWord_flags s
  obtain ⟨hcode, hmode, hreserved⟩ := statusWord_fields s
  refine ⟨hdone, hpin, hrange, hfault, ?_, ?_, hreserved, fun h hf => ?_, fun h hc => ?_,
    statusWord_resetWith, fun rest hw => step_of_readReg (r := .status) hw,
    fun rest v hw hf hp => ?_⟩
  · rw [hcode]
    cases s.fcode <;> rfl
  · rw [hmode]
    cases s.activeMode <;> rfl
  · rw [hcode, h.latch.mpr hf]
    rfl
  · obtain ⟨hdirect, -⟩ := h.unconfigured hc
    rw [hmode, hdirect]
    rfl
  · obtain ⟨-, hgood⟩ := answered_raise_eq s rest .written .busError
    have hbad : (Event.write (s.params.blockBase + 0x04) (.word v)).IsBusError s.params := by
      refine ⟨by omega, by omega, .inr (.inr (.inl ?_))⟩
      omega
    rw [step_of_badWrite hw hp hbad]
    exact congrArg _ (hgood hf)

/-! ### Pseudo-instructions -/

/-- A run that starts by issuing a command goes on from what the command leaves. -/
theorem runSteps_issue (n : Nat) (hw : s.params.WellFormed)
    (hp : s.pending = issue s.params i :: rest)
    (hexec : exec i (s.answered rest .written) = .next t) : runSteps (n + 1) s = runSteps n t := by
  rw [runSteps, step_of_issue hw hp, hexec]

/-- A run that starts by writing a register goes on from what the write leaves. -/
theorem runSteps_wr (n : Nat) (hr : writable r = true) (hw : s.params.WellFormed)
    (hp : s.pending = wr s.params r v :: rest) :
    runSteps (n + 1) s = runSteps n (afterWriteReg (s.answered rest .written) r v) := by
  rw [runSteps, step_of_writeReg hr hw hp]

/-- A run that starts by reading a register goes on with its value answered. -/
theorem runSteps_rd (n : Nat) (hw : s.params.WellFormed) (hp : s.pending = rd s.params r :: rest) :
    runSteps (n + 1) s = runSteps n (s.answered rest (.data (readReg s r))) := by
  rw [runSteps, step_of_readReg hw hp]

/-- Settles O47: the two steps of STEP run SETTOP and SETDUTY. -/
theorem stepPseudoSetsTopAndDuty : Obligations.StepPseudoSetsTopAndDuty := by
  intro s x rest hw hf hc hp
  calc runSteps 2 s
      = runSteps 1 ((s.answered (issue s.params (.setDuty x) :: rest) .written).setTop x) :=
        runSteps_issue 1 hw hp (exec_setTop x hf hc)
    _ = runSteps 0 { s with
          topReg := x, dutyReg := halved x, pending := rest, busReply := .written } :=
        runSteps_issue 0 hw rfl (exec_setDuty x hf hc)

@[simp] theorem translated_pending (s : State) (m : PrescaleMode) :
    (s.translated m).pending = s.pending := by
  obtain ⟨_, _, h⟩ | ⟨_, h⟩ := translated_cases s m <;> simp [h]

@[simp] theorem translated_params (s : State) (m : PrescaleMode) :
    (s.translated m).params = s.params := by
  obtain ⟨_, _, h⟩ | ⟨_, h⟩ := translated_cases s m <;> simp [h]

/-- The operands of a TOPFOR in place, and its two reads still to come (R69). -/
def State.withOperands (s : State) (f clk : Word) (rest : List Event) : State :=
  { s with
    freq := f, sysclk := clk, busReply := .written
    pending := rd s.params .status :: rd s.params .result :: rest }

/-- The two operand writes and the CALC of a TOPFOR (R69). -/
theorem runSteps_topfor {f clk : Word} (n : Nat) (hw : s.params.WellFormed) (hf : s.fault = false)
    (hp : s.pending = topforEvents s.params m f clk ++ rest) :
    runSteps (n + 3) s = runSteps n ((s.withOperands f clk rest).translated m) := by
  rw [runSteps_wr (r := .freq) (n + 2) rfl hw hp,
    runSteps_wr (r := .sysclk) (s := afterWriteReg (s.answered _ .written) .freq f) (n + 1) rfl hw
      rfl]
  exact runSteps_issue n hw rfl (exec_calcTop m hf)

/-- Reading STATUS and then RESULT answers both as they stand. -/
theorem runSteps_status_result (hw : s.params.WellFormed)
    (hp : s.pending = rd s.params .status :: rd s.params .result :: rest) :
    runSteps 1 s = .next (s.answered (rd s.params .result :: rest) (.data (statusWord s))) ∧
      runSteps 2 s = .next (s.answered rest (.data s.result)) := by
  rw [runSteps_rd 0 hw hp, runSteps_rd 1 hw hp]
  exact ⟨rfl, runSteps_rd (s := s.answered _ _) (r := .result) 0 hw rfl⟩

/-- Settles O48: the reads answer RANGE and RESULT of the CALC, which tell its cases apart. -/
theorem topForReturnsTheTranslation : Obligations.TopForReturnsTheTranslation := by
  rintro s m f clk rest _ hw hf rfl hp
  have hparams : ((s.withOperands f clk rest).translated m).params = s.params :=
    translated_params _ m
  obtain ⟨hstatus, hresult⟩ :=
    runSteps_status_result (s := (s.withOperands f clk rest).translated m) (rest := rest)
      (hparams ▸ hw) (by rw [hparams, translated_pending]; rfl)
  obtain ⟨-, -, hbit, -⟩ := statusWord_flags ((s.withOperands f clk rest).translated m)
  refine ⟨_, _, _, _, (runSteps_topfor 1 hw hf hp).trans hstatus, rfl,
    (runSteps_topfor 2 hw hf hp).trans hresult, rfl, rfl, ?_, fun hr => ?_, fun hr => ?_⟩
  · rw [hbit, ← Bool.not_eq_true, translated_range_eq_true, topFor_eq_none]
    simp only [State.withOperands, timerClock]
    generalize clk.toNat / divisor m / f.toNat = q
    omega
  · rw [hbit] at hr
    exact (div_eq_of_translated_range hr).symm
  · rw [hbit] at hr
    rw [translated_of_none (translated_range_eq_true.mp hr)]
    rfl

end Sys2Proof.Machine
end

section
/-! SUPPORT. What a command may change, what it does the second time (spec/20_memory.md R44;
spec/41_configurator.md R79), and what RESULT tells after ENC and CALC (spec/40_prescale.md R74;
spec/42_translator.md R92). Then the obligations about them. -/

namespace Sys2Proof.Machine

variable {s t : State} {i : Instr} {m n : PrescaleMode} {p : Params}

/-! ### Frames -/

/-- An answer of a command is the state its plain function gives. -/
theorem eq_afterCommand_of_exec (h : exec i s = .next t) : t = afterCommand i s := by
  rw [exec_eq_after] at h
  exact (Host.Outcome.next.inj h).symm

theorem afterCommand_cfg_cases (m : PrescaleMode) (v : Half) (s : State) :
    afterCommand (.cfg m v) s = s ∨
    (s.fault = false ∧ afterCommand (.cfg m v) s = s.setLatch .reconfigure) ∨
    afterCommand (.cfg m v) s = s.configured m v := by
  cases hf : s.fault
  · cases hc : s.cfgDone <;> simp [afterCommand, whenUnconfigured, raise_of_good, hf, hc]
  · simp [afterCommand, hf]

/-- What the checks of SETTOP and SETDUTY let through (R99, R101). -/
theorem checked_whenConfigured_cases (s : State) (body : State → State) :
    (if s.fault then s else whenConfigured s body) = s ∨
    (s.fault = false ∧
      (if s.fault then s else whenConfigured s body) = s.setLatch .notConfigured) ∨
    (if s.fault then s else whenConfigured s body) = body s := by
  cases hf : s.fault
  · cases hc : s.cfgDone <;> simp [whenConfigured, raise_of_good, hf, hc]
  · simp

theorem afterCommand_setTop_cases (v : Half) (s : State) :
    afterCommand (.setTop v) s = s ∨
    (s.fault = false ∧ afterCommand (.setTop v) s = s.setLatch .notConfigured) ∨
    afterCommand (.setTop v) s = s.setTop v :=
  checked_whenConfigured_cases s fun s => s.setTop v

theorem afterCommand_setDuty_cases (v : Half) (s : State) :
    afterCommand (.setDuty v) s = s ∨
    (s.fault = false ∧ afterCommand (.setDuty v) s = s.setLatch .notConfigured) ∨
    afterCommand (.setDuty v) s = s.setDuty (halved v) :=
  checked_whenConfigured_cases s fun s => s.setDuty (halved v)

theorem afterCommand_calcTop_cases (m : PrescaleMode) (s : State) :
    afterCommand (.calcTop m) s = s ∨
    (∃ v, afterCommand (.calcTop m) s = (s.setResult v).setRange false) ∨
    afterCommand (.calcTop m) s = s.setRange true := by
  cases hf : s.fault
  · obtain ⟨n, -, h⟩ | ⟨-, h⟩ := translated_cases s m
    · exact .inr (.inl ⟨BitVec.ofNat 32 n, by simp [afterCommand, hf, h]⟩)
    · exact .inr (.inr (by simp [afterCommand, hf, h]))
  · simp [afterCommand, hf]

/-- DIV and ENC write RESULT or are discarded. -/
theorem afterCommand_result_cases (hi : i = .div m ∨ i = .enc m) (s : State) :
    afterCommand i s = s ∨ ∃ v, afterCommand i s = s.setResult v := by
  cases hf : s.fault
  · rcases hi with rfl | rfl <;> simp [afterCommand, hf]
  · simp [afterCommand, hf]

/-- Of a command that is discarded, latches a fault or has an effect elsewhere: a latch that changed is
the whole change, and one that did not change has its code. -/
theorem latch_of_cases {u : State} {c : FaultCode}
    (h : t = s ∨ (s.fault = false ∧ t = s.setLatch c) ∨ t = u)
    (hu : u.fault = s.fault ∧ u.fcode = s.fcode) :
    (t.fault ≠ s.fault → t = { s with fault := true, fcode := c }) ∧
      (t.fault = s.fault → t.fcode = s.fcode) := by
  obtain rfl | ⟨hf, rfl⟩ | rfl := h
  · exact ⟨fun hne => absurd rfl hne, fun _ => rfl⟩
  · exact ⟨fun _ => rfl, fun heq => nomatch heq.trans hf⟩
  · exact ⟨fun hne => absurd hu.1 hne, fun _ => hu.2⟩

/-- Settles O24: each command by the few states it can leave. -/
theorem commandFrames : Obligations.CommandFrames := by
  intro s t
  refine ⟨fun m v h => ?_, fun v h => ?_, fun v h => ?_, fun m h => ?_, fun m h => ?_⟩
  · obtain rfl := eq_afterCommand_of_exec h
    have hcases := afterCommand_cfg_cases m v s
    refine ⟨?_, latch_of_cases hcases ⟨rfl, rfl⟩⟩
    obtain h | ⟨-, h⟩ | h := hcases <;> rw [h] <;> rfl
  · obtain rfl := eq_afterCommand_of_exec h
    have hcases := afterCommand_setTop_cases v s
    refine ⟨?_, latch_of_cases hcases ⟨rfl, rfl⟩⟩
    obtain h | ⟨-, h⟩ | h := hcases <;> rw [h] <;> rfl
  · obtain rfl := eq_afterCommand_of_exec h
    have hcases := afterCommand_setDuty_cases v s
    refine ⟨?_, latch_of_cases hcases ⟨rfl, rfl⟩⟩
    obtain h | ⟨-, h⟩ | h := hcases <;> rw [h] <;> rfl
  · obtain rfl := eq_afterCommand_of_exec h
    obtain h | ⟨v, h⟩ | h := afterCommand_calcTop_cases m s <;> rw [h]
    · exact ⟨rfl, fun _ => rfl⟩
    · exact ⟨rfl, nofun⟩
    · exact ⟨rfl, fun _ => rfl⟩
  · obtain ⟨i, hi, h⟩ : ∃ i, (i = .div m ∨ i = .enc m) ∧ exec i s = .next t :=
      h.elim (⟨_, .inl rfl, ·⟩) (⟨_, .inr rfl, ·⟩)
    obtain rfl := eq_afterCommand_of_exec h
    obtain h | ⟨v, h⟩ := afterCommand_result_cases hi s <;> rw [h]
    rfl

/-! ### The second time -/

/-- A second CALC meets the operands of the first. -/
theorem translated_translated (s : State) (m : PrescaleMode) :
    (s.translated m).translated m = s.translated m := by
  obtain ⟨n, hn, h⟩ | ⟨hn, h⟩ := translated_cases s m <;> rw [h]
  · exact translated_of_some (s := (s.setResult _).setRange false) hn
  · exact translated_of_none (s := s.setRange true) hn

@[simp] theorem translated_fault (s : State) (m : PrescaleMode) :
    (s.translated m).fault = s.fault := by
  obtain ⟨_, _, h⟩ | ⟨_, h⟩ := translated_cases s m <;> simp [h]

/-- Every command but CFG leaves a state that it leaves as it is (R44). -/
theorem exec_afterCommand (hi : ∀ m v, i ≠ .cfg m v) (s : State) :
    exec i (afterCommand i s) = .next (afterCommand i s) := by
  obtain ⟨hf, h⟩ | ⟨-, -, ⟨m, v, rfl⟩, -⟩ | ⟨-, -, -, h⟩ | ⟨m, v, -, -, rfl, -⟩ |
    ⟨v, hf, hc, rfl, h⟩ | ⟨v, hf, hc, rfl, h⟩ | ⟨m, n, hf, rfl, hn, h⟩ | ⟨m, hf, rfl, hn, h⟩ |
    ⟨m, hf, rfl, h⟩ | ⟨m, hf, rfl, h⟩ := afterCommand_cases i s
  · rw [h, exec_of_fault i hf]
  · exact absurd rfl (hi m v)
  · rw [h]
    exact exec_of_fault i (State.setLatch_fault s _)
  · exact absurd rfl (hi m v)
  all_goals rw [h]
  · exact exec_setTop (s := s.setTop v) v hf hc
  · exact exec_setDuty (s := s.setDuty (halved v)) v hf hc
  · rw [← translated_of_some hn, exec_calcTop m ((translated_fault s m).trans hf),
      translated_translated]
  · rw [← translated_of_none hn, exec_calcTop m ((translated_fault s m).trans hf),
      translated_translated]
  · exact exec_div (s := s.setResult _) m hf
  · exact exec_enc (s := s.setResult _) m hf

/-- Settles O25: one command leaves what it leaves as it is, and an accepted CFG sets CFG_DONE, which the
second one meets. -/
theorem repeatedCommandsAreIdempotent : Obligations.RepeatedCommandsAreIdempotent := by
  refine ⟨fun i s t hi h => ?_, fun m n v u s t hf hc h => ?_⟩
  · obtain rfl := eq_afterCommand_of_exec h
    exact exec_afterCommand hi s
  · rw [exec_cfg m v hf hc] at h
    obtain rfl : s.configured m v = t := Host.Outcome.next.inj h
    exact exec_cfg_of_configured n u hf rfl

/-! ### What RESULT tells -/

/-- Under a well-formed configuration the clock-select table is injective (R8, R74). -/
theorem csCode_inj (h : p.WellFormed) (hcode : csCode p m = csCode p n) : m = n := by
  obtain ⟨-, -, -, hnodup, -⟩ := h
  have hlist : p.csCodes.list =
      [PrescaleMode.direct, .freq8, .freq64, .freq256, .freq1024].map (csCode p) := rfl
  have hall : ∀ m : PrescaleMode,
      m ∈ [PrescaleMode.direct, .freq8, .freq64, .freq256, .freq1024] := by
    intro m
    cases m <;> decide
  rw [hlist] at hnodup
  exact List.inj_on_of_nodup_map hnodup (hall m) (hall n) hcode

/-- Settles O29: ENC leaves the code of its mode, and the code tells the mode. -/
theorem encTellsModesApart : Obligations.EncTellsModesApart := by
  intro s t u m n hw hf ht hu hresult
  rw [exec_enc _ hf] at ht hu
  obtain rfl : s.setResult (csCode s.params m) = t := Host.Outcome.next.inj ht
  obtain rfl : s.setResult (csCode s.params n) = u := Host.Outcome.next.inj hu
  exact csCode_inj hw hresult

theorem divisor_pos (m : PrescaleMode) : 0 < divisor m := by
  cases m <;> decide

/-- Settles O34: the quotient of SYSCLK by the divisor times FREQ is RESULT + 1, which bounds SYSCLK on
both sides; the upper bound holds whether or not the divisor divides SYSCLK. -/
theorem producedFrequencyIsClose : Obligations.ProducedFrequencyIsClose := by
  intro s t m hf he hr
  obtain rfl := eq_translated_of_exec_calcTop hf he
  obtain ⟨hfreq, -⟩ := topFor_eq_some.mp (translated_range_eq_false.mp hr)
  have hq := div_eq_of_translated_range hr
  rw [timerClock, Nat.div_div_eq_div_mul] at hq
  have hpos : 0 < divisor m * s.freq.toNat :=
    Nat.mul_pos (divisor_pos m) (Nat.pos_of_ne_zero hfreq)
  have hlower := Nat.div_mul_le_self s.sysclk.toNat (divisor m * s.freq.toNat)
  have hupper := Nat.lt_mul_div_succ s.sysclk.toNat hpos
  rw [hq] at hlower hupper
  refine ⟨?_, fun _ => ?_⟩
  · calc s.freq.toNat * (divisor m * ((s.translated m).result.toNat + 1))
        = ((s.translated m).result.toNat + 1) * (divisor m * s.freq.toNat) := by ring
      _ ≤ s.sysclk.toNat := hlower
  · calc s.sysclk.toNat
        < divisor m * s.freq.toNat * ((s.translated m).result.toNat + 1 + 1) := hupper
      _ = s.freq.toNat * (divisor m * ((s.translated m).result.toNat + 2)) := by ring

end Sys2Proof.Machine
end
